-- ==== Sys2Proof/Word.lean ====
section
/-! DEFINITION. The two word types of the R6500 family (00_scope.md R6): the byte and the 16-bit internal address. -/

namespace Sys2Proof

/-- A byte: every register but the program counter, every memory location and the data bus (R6). -/
abbrev Byte := BitVec 8

/-- A 16-bit internal address; the program counter has this width on every device (R6, R23). -/
abbrev Addr := BitVec 16

end Sys2Proof
end

