-- ==== Sys2Proof/Config.lean ====
section
/-! DEFINITION. What an implementation fixes (the device, the memory map: 00_scope.md R5, R7) and the free values:
the constants without a body that stand for every value the spec leaves open. -/

namespace Sys2Proof

/-- The device parameter `dev` (00_scope.md R5): the ten parts of the family. -/
inductive Device where
  | r6502 | r6503 | r6504 | r6505 | r6506 | r6507 | r6512 | r6513 | r6514 | r6515
deriving DecidableEq, Repr

/-- What answers at a platform location, the parameter `MemMap` (00_scope.md R7, 20_memory.md R52). -/
inductive MemKind where
  /-- Read-write memory. -/
  | ram
  /-- Memory whose contents no write changes. -/
  | rom
  /-- A register of a peripheral device: it belongs to the platform, the CPU sees only what a read returns. -/
  | device
  /-- Nothing drives the bus: a read returns any byte, a write changes nothing. -/
  | unpopulated
deriving DecidableEq, Repr

/-- A run of platform locations that one kind answers. -/
structure Region where
  base : Nat
  size : Nat
  kind : MemKind
deriving DecidableEq, Repr

/-- The platform: the device and its memory map. A location that no region holds is RAM; where two regions hold
it the first of the list answers. No step changes the platform. DESIGN CHOICE, unsafe (log 37): each platform location
has a cell of its own, so a map that shows one memory cell at two locations is not expressed. -/
structure Platform where
  dev : Device
  map : List Region
deriving DecidableEq, Repr

/-- The reads one CPU step can make, by their role in it: no step makes two reads of one role, so a draw that
names the role and the step is fresh at each read (R52). -/
inductive Slot where
  | opcode | operand1 | operand2 | pointerLow | pointerHigh | data
  | pull1 | pull2 | pull3
  /-- No read: the first write cycle, for what happens after the reads before it (20_memory.md R62). -/
  | write
  | vectorLow | vectorHigh
deriving DecidableEq, Repr

/-- The draws of one CPU step (`anybit()`, `any8()` of 00_scope.md R9): each names what it decides. -/
inductive Draw where
  /-- The byte on a bus that nothing drives (R52, U12). -/
  | undriven (k : Slot) (a : Addr)
  /-- The byte a device register returns (R7, R52). -/
  | device (k : Slot) (a : Addr)
  /-- `A`, `C`, `N`, `V`, `Z` after a decimal ADC or SBC (R150, R151). -/
  | decimalA | decimalC | decimalN | decimalV | decimalZ
  /-- An IRQ is taken at the boundary right after CLI, SEI or PLP changed `I` (R226). -/
  | irqAfterMaskChange
  /-- An NMI is taken before the first instruction of a handler (R239). -/
  | nmiBeforeHandler
  /-- An NMI edge during a sequence or BRK redirects it to the NMI vector (R239). -/
  | nmiRedirects
  /-- `V` after an SO edge inside an instruction that writes `V` (R227). -/
  | soAgainstWrite
  /-- A register or flag after the reset sequence (R40, R41). -/
  | resetA | resetX | resetY | resetS | resetN | resetV | resetD | resetZ | resetC
  /-- A location that an instruction cut off by RES could have written holds its new value (R261). -/
  | abandonedWrite (loc : Nat)
deriving DecidableEq, Repr

/-- FREE VALUE, a byte: nothing constrains it (log 5). The first argument is the state's draw counter. -/
opaque Config.freeByte : Nat → Draw → Byte

/-- FREE VALUE, a bit: nothing constrains it (log 5). The first argument is the state's draw counter. -/
opaque Config.freeBit : Nat → Draw → Bool

end Sys2Proof
end

