-- ==== Sys2Proof/Machine/Bits.lean ====
section
/-! DEFINITION. Byte order and extension helpers (00_scope.md R9; 30_encoding.md R82; 20_memory.md R56). -/

namespace Sys2Proof.Machine

/-- `hi:lo`, the 16-bit value hi * 256 + lo (R9). -/
def joinBytes (hi lo : Byte) : Addr := hi ++ lo

/-- The low byte of an address, bits 7 to 0 (`PCL`, R8). -/
def loByte (a : Addr) : Byte := a.extractLsb' 0 8

/-- The high byte of an address, bits 15 to 8 (`PCH`, R8). -/
def hiByte (a : Addr) : Byte := a.extractLsb' 8 8

/-- `zext_16` (R9). -/
def zext16 (b : Byte) : Addr := b.setWidth 16

/-- `sext_16` (R9). -/
def sext16 (b : Byte) : Addr := b.signExtend 16

end Sys2Proof.Machine
end

