-- ==== Sys2Proof/Machine/Memory.lean ====
section
/-! DEFINITION. Memory as a list of (platform location, byte) pairs in one canonical form: locations strictly rising,
no entry equal to what an unlisted location reads as (20_memory.md R50). -/

namespace Sys2Proof.Machine

/-- Memory: the locations that differ from `Memory.unlisted`, in rising order. -/
abbrev Memory := List Host.Cell

/-- What an unlisted location reads as. DESIGN CHOICE, unsafe (log 4): the contents of RAM at power-up are the
platform's (R40). -/
def Memory.unlisted : Byte := 0x00

/-- The byte at a location. -/
def Memory.read : Memory → Nat → Byte
  | [], _ => Memory.unlisted
  | (k, v) :: m, loc => if k = loc then v else Memory.read m loc

/-- Memory without any entry for a location. -/
def Memory.erase : Memory → Nat → Memory
  | [], _ => []
  | (k, v) :: m, loc => if k = loc then Memory.erase m loc else (k, v) :: Memory.erase m loc

/-- Memory with an entry put before the first entry whose location is not below it. -/
def Memory.insert : Memory → Nat → Byte → Memory
  | [], loc, v => [(loc, v)]
  | (k, w) :: m, loc, v => if loc ≤ k then (loc, v) :: (k, w) :: m else (k, w) :: Memory.insert m loc v

/-- One byte written. Writing what an unlisted location reads as removes the entry. -/
def Memory.write (m : Memory) (loc : Nat) (v : Byte) : Memory :=
  if v = Memory.unlisted then Memory.erase m loc else Memory.insert (Memory.erase m loc) loc v

/-- The memory that holds, at each location, the value of `new` where `choose` says so and of `old` elsewhere
(70_reset_and_hazards.md R261). -/
def Memory.mix (choose : Nat → Bool) (old new : Memory) : Memory :=
  ((old.map Prod.fst) ++ (new.map Prod.fst)).foldl
    (fun m loc => if choose loc then m else Memory.write m loc (Memory.read old loc)) new

/-- The canonical form: locations strictly rising, no entry equal to `Memory.unlisted`. -/
abbrev Memory.wf (m : Memory) : Prop :=
  m.Pairwise (fun c d => c.1 < d.1) ∧ ∀ c ∈ m, c.2 ≠ Memory.unlisted

end Sys2Proof.Machine
end

