-- ==== Sys2Proof/Machine/State.lean ====
section
/-! DEFINITION. The state of the machine as plain data, the reasons a step can stop, and the state right after reset
(10_state.md). -/

namespace Sys2Proof.Machine

/-- The six stored flags of the status register `P` (10_state.md R24). Bits 4 and 5 are not stored: they exist only
in a pushed image (R31, R32). -/
structure Flags where
  /-- `P.N`, negative, bit 7 (R34). -/
  n : Bool
  /-- `P.V`, overflow, bit 6 (R33). -/
  v : Bool
  /-- `P.D`, decimal mode, bit 3 (R30). -/
  d : Bool
  /-- `P.I`, interrupt disable, bit 2 (R29). -/
  i : Bool
  /-- `P.Z`, zero, bit 1 (R28). -/
  z : Bool
  /-- `P.C`, carry, bit 0 (R27). -/
  c : Bool
deriving DecidableEq, Repr

/-- The edges that fall inside one CPU step (60_exceptions.md R227, R239; 70_reset_and_hazards.md R261). -/
structure During where
  /-- NMI falls while the step runs. -/
  nmiFalls : Bool
  /-- SO falls while the step runs. -/
  soFalls : Bool
  /-- RES falls while the step runs. -/
  resFalls : Bool
deriving DecidableEq, Repr

/-- No edge falls inside the step. -/
def During.none : During := ⟨false, false, false⟩

/-- An environment step (00_scope.md R11). A level is given as true for high, but for IRQ, whose request is the low
level (R39). -/
inductive EnvStep where
  /-- The IRQ pin goes low (`requesting`) or high. -/
  | setIrq (requesting : Bool)
  /-- The NMI pin goes to a level; its falling edge is latched. -/
  | setNmi (high : Bool)
  /-- The SO pin goes to a level; its falling edge sets `P.V`. -/
  | setSo (high : Bool)
  /-- The RDY pin goes to a level. -/
  | setRdy (high : Bool)
  /-- The RES pin goes to a level; its rising edge calls for the reset sequence. -/
  | setRes (high : Bool)
  /-- Another bus master (or, while RES is low, the platform) writes a byte. -/
  | dma (a : Addr) (v : Byte)
deriving DecidableEq, Repr

/-- A write by another bus master while RDY holds the CPU inside a step, before the cycle of a role
(20_memory.md R62 d). -/
structure DmaWrite where
  before : Slot
  a : Addr
  v : Byte
deriving DecidableEq, Repr

/-- What stood at a location before a DMA write inside the step: the reads before that write see it. -/
structure Replaced where
  before : Slot
  loc : Nat
  old : Byte
deriving DecidableEq, Repr

/-- Who moves next: the environment, or the CPU with the edges and the DMA writes that fall inside its step. -/
inductive Turn where
  | env (e : EnvStep)
  | cpu (d : During) (dma : List DmaWrite)
deriving DecidableEq, Repr

/-- What the last CPU step means for the recognition of interrupts at the boundary after it. -/
inductive Boundary where
  /-- Any step but those below: the stored `I` decides (60_exceptions.md R226). -/
  | ordinary
  /-- Right after CLI, SEI or PLP, with the value of `I` before it (R226). -/
  | afterMaskChange (oldI : Bool)
  /-- Right after an interrupt sequence or BRK, before the handler's first instruction (R239). -/
  | afterSequence
deriving DecidableEq, Repr

/-- The state. The fields from `a` to `res` are the spec's; `nmiLine`, `soLine` and `resetDue` hold what it needs to
know an edge; `boundary` to `cycles` are the model's own (INVENTORY.md). -/
structure State where
  /-- The accumulator `A` (R20). -/
  a : Byte
  /-- The index register `X` (R21). -/
  x : Byte
  /-- The index register `Y` (R21). -/
  y : Byte
  /-- The stack pointer `S` (R22). -/
  sp : Byte
  /-- The program counter `PC` (R23): between instructions the address of the next op code. -/
  pc : Addr
  /-- The stored flags of `P` (R24). -/
  p : Flags
  /-- Memory, by platform location (R50, R51). -/
  mem : Memory
  /-- `irq_line`: the IRQ pin is low, that is requesting (R39). -/
  irqLine : Bool
  /-- `nmi_pending`: an NMI edge was latched and not served yet (R39, R228). -/
  nmiPending : Bool
  /-- `rdy`: RDY is high (R39). -/
  rdy : Bool
  /-- `res`: RES is high (R39). -/
  res : Bool
  /-- The NMI pin is high (R222). -/
  nmiLine : Bool
  /-- The SO pin is high (R227). -/
  soLine : Bool
  /-- RES rose and the reset sequence has not run yet (R260). -/
  resetDue : Bool
  /-- The device and the memory map (R5, R7); no step changes it. -/
  platform : Platform
  /-- What the last CPU step means for the next recognition (R226, R239). -/
  boundary : Boundary
  /-- The turns still to come; when there is none the CPU moves alone (R11). -/
  schedule : List Turn
  /-- The edges inside the CPU step in progress; none between steps. -/
  during : During
  /-- The bytes that DMA writes inside the CPU step in progress replaced, oldest first; empty between steps. -/
  replaced : List Replaced
  /-- The index of the free values of the next CPU step (log 5). -/
  draws : Nat
  /-- Machine cycles executed (R270). -/
  cycles : Nat
deriving DecidableEq, Repr

/-- Why the machine faults: it never does. "It has no synchronous fault of any kind" (60_exceptions.md R220), so the
type has no constructor. Safe: there is nothing to raise. -/
inductive Fault where
deriving DecidableEq, Repr

/-- Why a step has no meaning. -/
inductive Refusal where
  /-- Raised by `exec` for an instruction without a meaning yet. Safe: no claim can be proved about it. -/
  | notModelled (mnemonic : String)
  /-- Raised by the CPU step when the op code byte at `PC` is one of the 105 the matrix leaves blank
  (30_encoding.md R86, "refuse UndefinedOpcode(op)"). Safe: the machine stops where the hardware goes on (log 9). -/
  | undefinedOpcode (op : Byte)
  /-- Raised by JSR at `pc` when a byte it pushes lands on one of its own operand bytes (44_branch_jump.md R191,
  decision D31). Safe: the machine stops where the hardware goes on (log 10). -/
  | pushOverOperand (pc : Addr)
deriving DecidableEq, Repr

/-- What a step or a meaning answers. -/
abbrev Result := Host.Outcome State Fault Refusal

/-- The machine right after the reset sequence (10_state.md R40) of a power-up. `PC` is loaded from the reset vector,
`I` is 1, `nmi_pending` is 0; the other values are the model's (log 1, 2, 3, 4). -/
def State.reset : State where
  a := 0x00
  x := 0x00
  y := 0x00
  sp := 0x00
  pc := joinBytes (Memory.read [] 0xFFFD) (Memory.read [] 0xFFFC)
  p := ⟨false, false, false, true, false, false⟩
  mem := []
  irqLine := false
  nmiPending := false
  rdy := true
  res := true
  nmiLine := true
  soLine := true
  resetDue := false
  platform := ⟨.r6502, []⟩
  boundary := .ordinary
  schedule := []
  during := During.none
  replaced := []
  draws := 0
  cycles := 0

end Sys2Proof.Machine
end

