-- ==== Sys2Proof/Machine/Flags.lean ====
section
/-! DEFINITION. Every flag computation of the spec: images of `P` (10_state.md R35, R36), `SetNZ` (R37), the binary
addition of ADC, SBC and the compares (42_arithmetic_logic.md R149), packed decimal (R150, R151), the shifts
(43_shift_incdec.md R160 to R163). -/

namespace Sys2Proof.Machine

/-- `PByte(b)`, the byte image of `P` with break bit `b` (R35). -/
def Flags.image (p : Flags) (b : Bool) : Byte :=
  BitVec.ofNat 8 (p.n.toNat * 128 + p.v.toNat * 64 + 32 + b.toNat * 16 + p.d.toNat * 8 + p.i.toNat * 4 +
    p.z.toNat * 2 + p.c.toNat)

/-- `SetP(v)`: bits 5 and 4 are discarded (R36). -/
def flagsOf (v : Byte) : Flags where
  n := v.getLsbD 7
  v := v.getLsbD 6
  d := v.getLsbD 3
  i := v.getLsbD 2
  z := v.getLsbD 1
  c := v.getLsbD 0

/-- `SetNZ(v)` (R37). -/
def Flags.setNZ (p : Flags) (v : Byte) : Flags := { p with n := v.getLsbD 7, z := v == 0x00 }

/-- `SetNZ(r)` together with a new carry. -/
def Flags.setNZC (p : Flags) (r : Byte) (c : Bool) : Flags := { p.setNZ r with c := c }

/-- What `AddBinary` gives. -/
structure Sum where
  r : Byte
  cout : Bool
  vout : Bool
deriving DecidableEq, Repr

/-- `AddBinary(a, m, c)` (R149). -/
def addBinary (a m : Byte) (c : Bool) : Sum :=
  let sum := a.toNat + m.toNat + c.toNat
  let r : Byte := BitVec.ofNat 8 sum
  { r := r, cout := decide (256 ≤ sum), vout := (a ^^^ r) &&& (m ^^^ r) &&& 0x80 != 0x00 }

/-- A byte is valid packed BCD (R150). -/
def validBcd (v : Byte) : Bool := decide (v.toNat / 16 ≤ 9) && decide (v.toNat % 16 ≤ 9)

/-- `bcd(v)` (R150). -/
def bcdValue (v : Byte) : Nat := 10 * (v.toNat / 16) + v.toNat % 16

/-- `tobcd(n)` for n up to 99 (R150). -/
def toBcd (n : Nat) : Byte := BitVec.ofNat 8 ((n / 10) * 16 + n % 10)

/-- The decimal sum and its carry for valid operands (R150). -/
def addDecimal (a m : Byte) (c : Bool) : Byte × Bool :=
  let t := bcdValue a + bcdValue m + c.toNat
  (toBcd (t % 100), decide (100 ≤ t))

/-- The decimal difference and its carry (1 is no borrow) for valid operands (R151). -/
def subDecimal (a m : Byte) (c : Bool) : Byte × Bool :=
  let t : Int := (bcdValue a : Int) - bcdValue m - (1 - c.toNat)
  (toBcd (t % 100).toNat, decide (0 ≤ t))

/-- ASL: the shifted byte and the bit that leaves (R160). -/
def aslByte (v : Byte) : Byte × Bool := (v <<< 1, v.getLsbD 7)

/-- LSR: the shifted byte and the bit that leaves (R161). -/
def lsrByte (v : Byte) : Byte × Bool := (v >>> 1, v.getLsbD 0)

/-- ROL through the old carry `c` (R162). -/
def rolByte (c : Bool) (v : Byte) : Byte × Bool := ((v <<< 1) ||| BitVec.ofNat 8 c.toNat, v.getLsbD 7)

/-- ROR through the old carry `c` (R163). -/
def rorByte (c : Bool) (v : Byte) : Byte × Bool := ((v >>> 1) ||| BitVec.ofNat 8 (c.toNat * 128), v.getLsbD 0)

end Sys2Proof.Machine
end

