-- ==== Sys2Proof/Machine/Platform.lean ====
section
/-! DEFINITION. What each device has (00_scope.md R5, its table) and which platform location an internal address
reaches (20_memory.md R51, R52). -/

namespace Sys2Proof.Machine

/-- `ADDR_BITS`, the number of address output lines (R5). -/
def addrBits : Device → Nat
  | .r6502 | .r6512 => 16
  | .r6504 | .r6507 | .r6514 => 13
  | .r6503 | .r6505 | .r6506 | .r6513 | .r6515 => 12

/-- `HAS_IRQ` (R5). -/
def hasIrq : Device → Bool
  | .r6507 => false
  | .r6502 | .r6503 | .r6504 | .r6505 | .r6506 | .r6512 | .r6513 | .r6514 | .r6515 => true

/-- `HAS_NMI` (R5). -/
def hasNmi : Device → Bool
  | .r6502 | .r6503 | .r6512 | .r6513 => true
  | .r6504 | .r6505 | .r6506 | .r6507 | .r6514 | .r6515 => false

/-- `HAS_RDY` (R5). -/
def hasRdy : Device → Bool
  | .r6502 | .r6505 | .r6507 | .r6512 | .r6515 => true
  | .r6503 | .r6504 | .r6506 | .r6513 | .r6514 => false

/-- `HAS_SO` (R5, notes a and b; the value for the R6502 is the spec's assumption, log 28). -/
def hasSo : Device → Bool
  | .r6502 | .r6512 => true
  | .r6503 | .r6504 | .r6505 | .r6506 | .r6507 | .r6513 | .r6514 | .r6515 => false

/-- `HAS_SYNC` (R5). SYNC is an output no program reads; single-step needs it and RDY (R243). -/
def hasSync : Device → Bool
  | .r6502 | .r6512 => true
  | .r6503 | .r6504 | .r6505 | .r6506 | .r6507 | .r6513 | .r6514 | .r6515 => false

/-- `HAS_DBE` (R5); the model takes DBE as tied to the clock (R275, log 33). -/
def hasDbe : Device → Bool
  | .r6512 => true
  | .r6502 | .r6503 | .r6504 | .r6505 | .r6506 | .r6507 | .r6513 | .r6514 | .r6515 => false

/-- The platform location an internal address reaches: `addr mod 2^ADDR_BITS` (R51). -/
def State.loc (s : State) (a : Addr) : Nat := a.toNat % 2 ^ addrBits s.platform.dev

/-- What answers at a location: the first region that holds it, RAM where none does (R52, log 3). A region gives a kind
and no cell of another location: mirrors are not expressed (DESIGN CHOICE, log 37). -/
def kindAt : List Region → Nat → MemKind
  | [], _ => .ram
  | r :: rs, loc => if r.base ≤ loc ∧ loc < r.base + r.size then r.kind else kindAt rs loc

/-- What answers at an internal address. -/
def State.kind (s : State) (a : Addr) : MemKind := kindAt s.platform.map (s.loc a)

/-- The byte of memory that stands at an address, whether or not a read would return it: what a program's memory
holds, and what statements about memory speak of. Two locations are two cells (DESIGN CHOICE, log 37). -/
def State.byteAt (s : State) (a : Addr) : Byte := Memory.read s.mem (s.loc a)

end Sys2Proof.Machine
end

