-- ==== Sys2Proof/Machine/Ops.lean ====
section
/-! DEFINITION. The named operations over registers, memory and stack, and taking and leaving an interrupt
(20_memory.md R55, R65; 60_exceptions.md R230; 45_stack_flag_system.md R213). -/

namespace Sys2Proof.Machine

/-- A new accumulator. -/
def State.withA (s : State) (v : Byte) : State := { s with a := v }

/-- A new `X`. -/
def State.withX (s : State) (v : Byte) : State := { s with x := v }

/-- A new `Y`. -/
def State.withY (s : State) (v : Byte) : State := { s with y := v }

/-- A new stack pointer. -/
def State.withSp (s : State) (v : Byte) : State := { s with sp := v }

/-- A new program counter. -/
def State.withPc (s : State) (v : Addr) : State := { s with pc := v }

/-- New flags. -/
def State.withP (s : State) (v : Flags) : State := { s with p := v }

/-- A new memory. -/
def State.withMem (s : State) (m : Memory) : State := { s with mem := m }

/-- The order of the cycles of one CPU step, by their roles: an instruction's rule reads in this order, writes after its
reads, and reads a vector after it has pushed (R62, R66). -/
def slotRank : Slot → Nat
  | .opcode => 0
  | .operand1 => 1
  | .operand2 => 2
  | .pointerLow => 3
  | .pointerHigh => 4
  | .data => 5
  | .pull1 => 6
  | .pull2 => 7
  | .pull3 => 8
  | .write => 9
  | .vectorLow => 10
  | .vectorHigh => 11

/-- The byte of memory a read of role `k` finds: what stands at the address, but where a DMA write of this step comes
after the read, what stood there before the first such write (R62 d, R60). -/
def State.seenAt (s : State) (k : Slot) (a : Addr) : Byte :=
  match s.replaced.find? (fun e => e.loc == s.loc a && decide (slotRank k < slotRank e.before)) with
  | some e => e.old
  | none => s.byteAt a

/-- `MemRead(addr, 1)` (R55): the byte the platform returns. The slot says which read of the step it is: it decides
which DMA writes inside the step the read sees (R62), and names the byte where it is a free value (R52). -/
def State.memRead (s : State) (k : Slot) (a : Addr) : Byte :=
  match s.kind a with
  | .ram => s.seenAt k a
  | .rom => s.byteAt a
  | .device => Config.freeByte s.draws (.device k a)
  | .unpopulated => Config.freeByte s.draws (.undriven k a)

/-- `MemWrite(addr, 1, v)` (R55). A write to ROM, to a device register or to nothing changes no memory (R52). -/
def State.memWrite (s : State) (a : Addr) (v : Byte) : State :=
  match s.kind a with
  | .ram => s.withMem (Memory.write s.mem (s.loc a) v)
  | .rom => s
  | .device => s
  | .unpopulated => s

/-- `PC` moved past the `n` bytes of an instruction (R26). -/
def State.advance (s : State) (n : Nat) : State := s.withPc (s.pc + BitVec.ofNat 16 n)

/-- The address the stack pointer designates, `$0100 + S` (R22). -/
def stackAddr (sp : Byte) : Addr := joinBytes 0x01 sp

/-- `Push8(v)` (R65). -/
def State.push8 (s : State) (v : Byte) : State := (s.memWrite (stackAddr s.sp) v).withSp (s.sp - 1)

/-- The byte `Pull8()` returns as the `n`-th pull of a step, n counted from 1 (R65): the stack pointer is stepped
before each read. -/
def State.pulled (s : State) (k : Slot) (n : Nat) : Byte := s.memRead k (stackAddr (s.sp + BitVec.ofNat 8 n))

/-- The stack pointer after `n` pulls (R65). -/
def State.popped (s : State) (n : Nat) : State := s.withSp (s.sp + BitVec.ofNat 8 n)

/-- The end of a CPU step that executed something: the next step draws new free values, and the boundary after it is
of the kind given. -/
def State.finish (s : State) (b : Boundary) : State := { s with boundary := b, draws := s.draws + 1 }

/-- An instruction that completes. -/
def done (s : State) : Result := .next (s.finish .ordinary)

/-- The NMI vector (R54). -/
def nmiVector : Addr := 0xFFFA

/-- The reset vector (R54). -/
def resetVector : Addr := 0xFFFC

/-- The vector IRQ and BRK share (R54). -/
def irqVector : Addr := 0xFFFE

/-- The address a vector holds, low byte first (R54, R58). -/
def State.vectorAt (s : State) (v : Addr) : Addr :=
  joinBytes (s.memRead .vectorHigh (v + 1)) (s.memRead .vectorLow v)

/-- `PC` high, `PC` low and an image of `P` pushed, in that order (R66, R230). -/
def State.pushFrame (s : State) (b : Bool) : State :=
  ((s.push8 (hiByte s.pc)).push8 (loByte s.pc)).push8 (s.p.image b)

/-- An NMI edge falls inside this sequence and redirects it to the NMI vector (R239): where the edge falls and the
sequence is not already NMI's, either may happen, and a free bit decides (log 13). -/
def State.nmiRedirects (s : State) (vector : Addr) : Bool :=
  s.during.nmiFalls && hasNmi s.platform.dev && s.nmiLine && decide (vector ≠ nmiVector) &&
    Config.freeBit s.draws .nmiRedirects

/-- An NMI edge that a redirected sequence has served: the pin is low, the edge is gone, and so is a request that was
pending already, since R228 merges the edge into it. DESIGN CHOICE (log 13): the spec does not say that a redirected
sequence clears `nmi_pending`. -/
def State.nmiServed (s : State) : State :=
  { s with nmiLine := false, nmiPending := false, during := { s.during with nmiFalls := false } }

/-- TAKING AN INTERRUPT, `InterruptEntry(vector, b)` (R230) with `PC` the return address to be stacked: the frame is
pushed, `I` set, `PC` loaded from the vector. NMI, IRQ and BRK all call it. -/
def interruptEntry (vector : Addr) (b : Bool) (s : State) : State :=
  let pushed := s.pushFrame b
  let masked := pushed.withP { pushed.p with i := true }
  if s.nmiRedirects vector then (masked.withPc (masked.vectorAt nmiVector)).nmiServed
  else masked.withPc (masked.vectorAt vector)

/-- RETURNING FROM AN INTERRUPT (R213, R236): `P`, then `PC` low, then `PC` high are pulled; nothing is added. -/
def returnFromInterrupt (s : State) : State :=
  ((s.withP (flagsOf (s.pulled .pull1 1))).withPc (joinBytes (s.pulled .pull3 3) (s.pulled .pull2 2))).popped 3

end Sys2Proof.Machine
end

