-- ==== Sys2Proof/Machine/Operands.lean ====
section
/-! DEFINITION. The effective address of each addressing mode (40_addressing_modes.md). No mode changes a register
(R115). The operand bytes are arguments: `z` a zero page byte, `w` the 16-bit address operand, `r` a branch offset. -/

namespace Sys2Proof.Machine

/-- Absolute (R103). -/
def eaAbs (w : Addr) : Addr := w

/-- Zero page (R104): `$00:z`. -/
def eaZp (z : Byte) : Addr := joinBytes 0x00 z

/-- Zero page indexed by `X` (R105): the sum wraps in page zero. -/
def eaZpX (s : State) (z : Byte) : Addr := joinBytes 0x00 (z + s.x)

/-- Zero page indexed by `Y` (R106). -/
def eaZpY (s : State) (z : Byte) : Addr := joinBytes 0x00 (z + s.y)

/-- Absolute indexed by `X` (R107). -/
def eaAbsX (s : State) (w : Addr) : Addr := w + zext16 s.x

/-- Absolute indexed by `Y` (R108). -/
def eaAbsY (s : State) (w : Addr) : Addr := w + zext16 s.y

/-- A pointer in page zero at `$00:t`; its second byte's address wraps in page zero (R59, R111, R112). -/
def zpPointer (s : State) (t : Byte) : Addr :=
  joinBytes (s.memRead .pointerHigh (joinBytes 0x00 (t + 1))) (s.memRead .pointerLow (joinBytes 0x00 t))

/-- Indexed indirect, `(IND,X)` (R111). -/
def eaIndX (s : State) (z : Byte) : Addr := zpPointer s (z + s.x)

/-- Indirect indexed, `(IND),Y` (R112). -/
def eaIndY (s : State) (z : Byte) : Addr := zpPointer s z + zext16 s.y

/-- Absolute indirect, the target of JMP (R113): the address of the pointer's second byte is formed by stepping the
low byte only. -/
def indirectTarget (s : State) (w : Addr) : Addr :=
  joinBytes (s.memRead .pointerHigh (joinBytes (hiByte w) (loByte w + 1))) (s.memRead .pointerLow w)

/-- Relative, the target of a branch at `PC` (R110): the offset is added to the address of the next instruction. -/
def branchTarget (s : State) (r : Byte) : Addr := s.pc + 2 + sext16 r

/-- The operand value a read instruction gets from an effective address (R100). -/
def State.operand (s : State) (ea : Addr) : Byte := s.memRead .data ea

end Sys2Proof.Machine
end

