-- ==== Sys2Proof/Machine/Arith.lean ====
section
/-! DEFINITION. ADC and SBC, binary and decimal (42_arithmetic_logic.md R140, R141, R149 to R151). -/

namespace Sys2Proof.Machine

/-- A decimal result: `A` and `C` as given where both operands are valid BCD and free otherwise, N, V and Z free in
either case (R150, R151; log 11). -/
def decimalResult (valid : Bool) (r : Byte × Bool) (s : State) : State :=
  (s.withA (if valid then r.1 else Config.freeByte s.draws .decimalA)).withP
    { s.p with
      n := Config.freeBit s.draws .decimalN
      v := Config.freeBit s.draws .decimalV
      z := Config.freeBit s.draws .decimalZ
      c := if valid then r.2 else Config.freeBit s.draws .decimalC }

/-- A binary result: `A`, N, Z, C and V (R140, R141). -/
def binaryResult (q : Sum) (s : State) : State :=
  (s.withA q.r).withP { s.p.setNZC q.r q.cout with v := q.vout }

/-- ADC by an instruction of `n` bytes (R140). -/
def addWithCarry (n : Nat) (m : Byte) (s : State) : Result :=
  if s.p.d then
    done ((decimalResult (validBcd s.a && validBcd m) (addDecimal s.a m s.p.c) s).advance n)
  else done ((binaryResult (addBinary s.a m s.p.c) s).advance n)

/-- SBC by an instruction of `n` bytes (R141): the borrow is the complement of the carry. -/
def subWithBorrow (n : Nat) (m : Byte) (s : State) : Result :=
  if s.p.d then
    done ((decimalResult (validBcd s.a && validBcd m) (subDecimal s.a m s.p.c) s).advance n)
  else done ((binaryResult (addBinary s.a (m ^^^ 0xFF) s.p.c) s).advance n)

/-- ADC, (IND,X) (R140, R111), op code `$61`. -/
def execAdcIndX (z : Byte) (s : State) : Result := addWithCarry 2 (s.operand (eaIndX s z)) s

/-- ADC, ZP (R140, R104), op code `$65`. -/
def execAdcZp (z : Byte) (s : State) : Result := addWithCarry 2 (s.operand (eaZp z)) s

/-- ADC, IMM (R140, R102), op code `$69`. -/
def execAdcImm (m : Byte) (s : State) : Result := addWithCarry 2 m s

/-- ADC, ABS (R140, R103), op code `$6D`. -/
def execAdcAbs (w : Addr) (s : State) : Result := addWithCarry 3 (s.operand (eaAbs w)) s

/-- ADC, (IND),Y (R140, R112), op code `$71`. -/
def execAdcIndY (z : Byte) (s : State) : Result := addWithCarry 2 (s.operand (eaIndY s z)) s

/-- ADC, ZP,X (R140, R105), op code `$75`. -/
def execAdcZpX (z : Byte) (s : State) : Result := addWithCarry 2 (s.operand (eaZpX s z)) s

/-- ADC, ABS,Y (R140, R108), op code `$79`. -/
def execAdcAbsY (w : Addr) (s : State) : Result := addWithCarry 3 (s.operand (eaAbsY s w)) s

/-- ADC, ABS,X (R140, R107), op code `$7D`. -/
def execAdcAbsX (w : Addr) (s : State) : Result := addWithCarry 3 (s.operand (eaAbsX s w)) s

/-- SBC, (IND,X) (R141, R111), op code `$E1`. -/
def execSbcIndX (z : Byte) (s : State) : Result := subWithBorrow 2 (s.operand (eaIndX s z)) s

/-- SBC, ZP (R141, R104), op code `$E5`. -/
def execSbcZp (z : Byte) (s : State) : Result := subWithBorrow 2 (s.operand (eaZp z)) s

/-- SBC, IMM (R141, R102), op code `$E9`. -/
def execSbcImm (m : Byte) (s : State) : Result := subWithBorrow 2 m s

/-- SBC, ABS (R141, R103), op code `$ED`. -/
def execSbcAbs (w : Addr) (s : State) : Result := subWithBorrow 3 (s.operand (eaAbs w)) s

/-- SBC, (IND),Y (R141, R112), op code `$F1`. -/
def execSbcIndY (z : Byte) (s : State) : Result := subWithBorrow 2 (s.operand (eaIndY s z)) s

/-- SBC, ZP,X (R141, R105), op code `$F5`. -/
def execSbcZpX (z : Byte) (s : State) : Result := subWithBorrow 2 (s.operand (eaZpX s z)) s

/-- SBC, ABS,Y (R141, R108), op code `$F9`. -/
def execSbcAbsY (w : Addr) (s : State) : Result := subWithBorrow 3 (s.operand (eaAbsY s w)) s

/-- SBC, ABS,X (R141, R107), op code `$FD`. -/
def execSbcAbsX (w : Addr) (s : State) : Result := subWithBorrow 3 (s.operand (eaAbsX s w)) s

end Sys2Proof.Machine
end

