-- ==== Sys2Proof/Machine/Branch.lean ====
section
/-! DEFINITION. The eight conditional branches (44_branch_jump.md R180 to R188). -/

namespace Sys2Proof.Machine

/-- The common rule of the branches (R180). -/
def branch (cond : Bool) (r : Byte) (s : State) : Result :=
  done (if cond then s.withPc (branchTarget s r) else s.advance 2)

/-- BCC, Relative (R181, R110), op code `$90`. -/
def execBcc (r : Byte) (s : State) : Result := branch (!s.p.c) r s

/-- BCS, Relative (R182, R110), op code `$B0`. -/
def execBcs (r : Byte) (s : State) : Result := branch s.p.c r s

/-- BEQ, Relative (R183, R110), op code `$F0`. -/
def execBeq (r : Byte) (s : State) : Result := branch s.p.z r s

/-- BMI, Relative (R184, R110), op code `$30`. -/
def execBmi (r : Byte) (s : State) : Result := branch s.p.n r s

/-- BNE, Relative (R185, R110), op code `$D0`. -/
def execBne (r : Byte) (s : State) : Result := branch (!s.p.z) r s

/-- BPL, Relative (R186, R110), op code `$10`. -/
def execBpl (r : Byte) (s : State) : Result := branch (!s.p.n) r s

/-- BVC, Relative (R187, R110), op code `$50`. -/
def execBvc (r : Byte) (s : State) : Result := branch (!s.p.v) r s

/-- BVS, Relative (R188, R110), op code `$70`. -/
def execBvs (r : Byte) (s : State) : Result := branch s.p.v r s

end Sys2Proof.Machine
end

