-- ==== Sys2Proof/Machine/Compare.lean ====
section
/-! DEFINITION. CMP, CPX, CPY (42_arithmetic_logic.md R145 to R147): always binary, the difference is discarded. -/

namespace Sys2Proof.Machine

/-- A register compared with an operand by an instruction of `n` bytes: N, Z and C of the difference. -/
def compare (reg : Byte) (n : Nat) (m : Byte) (s : State) : Result :=
  let q := addBinary reg (m ^^^ 0xFF) true
  done ((s.withP (s.p.setNZC q.r q.cout)).advance n)

/-- CMP, (IND,X) (R145, R111), op code `$C1`. -/
def execCmpIndX (z : Byte) (s : State) : Result := compare s.a 2 (s.operand (eaIndX s z)) s

/-- CMP, ZP (R145, R104), op code `$C5`. -/
def execCmpZp (z : Byte) (s : State) : Result := compare s.a 2 (s.operand (eaZp z)) s

/-- CMP, IMM (R145, R102), op code `$C9`. -/
def execCmpImm (m : Byte) (s : State) : Result := compare s.a 2 m s

/-- CMP, ABS (R145, R103), op code `$CD`. -/
def execCmpAbs (w : Addr) (s : State) : Result := compare s.a 3 (s.operand (eaAbs w)) s

/-- CMP, (IND),Y (R145, R112), op code `$D1`. -/
def execCmpIndY (z : Byte) (s : State) : Result := compare s.a 2 (s.operand (eaIndY s z)) s

/-- CMP, ZP,X (R145, R105), op code `$D5`. -/
def execCmpZpX (z : Byte) (s : State) : Result := compare s.a 2 (s.operand (eaZpX s z)) s

/-- CMP, ABS,Y (R145, R108), op code `$D9`. -/
def execCmpAbsY (w : Addr) (s : State) : Result := compare s.a 3 (s.operand (eaAbsY s w)) s

/-- CMP, ABS,X (R145, R107), op code `$DD`. -/
def execCmpAbsX (w : Addr) (s : State) : Result := compare s.a 3 (s.operand (eaAbsX s w)) s

/-- CPX, IMM (R146, R102), op code `$E0`. -/
def execCpxImm (m : Byte) (s : State) : Result := compare s.x 2 m s

/-- CPX, ZP (R146, R104), op code `$E4`. -/
def execCpxZp (z : Byte) (s : State) : Result := compare s.x 2 (s.operand (eaZp z)) s

/-- CPX, ABS (R146, R103), op code `$EC`. -/
def execCpxAbs (w : Addr) (s : State) : Result := compare s.x 3 (s.operand (eaAbs w)) s

/-- CPY, IMM (R147, R102), op code `$C0`. -/
def execCpyImm (m : Byte) (s : State) : Result := compare s.y 2 m s

/-- CPY, ZP (R147, R104), op code `$C4`. -/
def execCpyZp (z : Byte) (s : State) : Result := compare s.y 2 (s.operand (eaZp z)) s

/-- CPY, ABS (R147, R103), op code `$CC`. -/
def execCpyAbs (w : Addr) (s : State) : Result := compare s.y 3 (s.operand (eaAbs w)) s

end Sys2Proof.Machine
end

