-- ==== Sys2Proof/Machine/IncDec.lean ====
section
/-! DEFINITION. INC, DEC, INX, INY, DEX, DEY (43_shift_incdec.md R164 to R170): modulo 256, C and V are not written. -/

namespace Sys2Proof.Machine

/-- The byte at an effective address stepped, one read and then one write (R164, R165, R170). -/
def stepMem (n : Nat) (ea : Addr) (delta : Byte) (s : State) : Result :=
  let r := s.operand ea + delta
  done (((s.memWrite ea r).withP (s.p.setNZ r)).advance n)

/-- A stepped `X` with N and Z (R166, R168). -/
def indexX (r : Byte) (s : State) : Result := done (((s.withX r).withP (s.p.setNZ r)).advance 1)

/-- A stepped `Y` with N and Z (R167, R169). -/
def indexY (r : Byte) (s : State) : Result := done (((s.withY r).withP (s.p.setNZ r)).advance 1)

/-- INC, ZP (R164, R104), op code `$E6`. -/
def execIncZp (z : Byte) (s : State) : Result := stepMem 2 (eaZp z) 1 s

/-- INC, ABS (R164, R103), op code `$EE`. -/
def execIncAbs (w : Addr) (s : State) : Result := stepMem 3 (eaAbs w) 1 s

/-- INC, ZP,X (R164, R105), op code `$F6`. -/
def execIncZpX (z : Byte) (s : State) : Result := stepMem 2 (eaZpX s z) 1 s

/-- INC, ABS,X (R164, R107), op code `$FE`. -/
def execIncAbsX (w : Addr) (s : State) : Result := stepMem 3 (eaAbsX s w) 1 s

/-- DEC, ZP (R165, R104), op code `$C6`. -/
def execDecZp (z : Byte) (s : State) : Result := stepMem 2 (eaZp z) (-1) s

/-- DEC, ABS (R165, R103), op code `$CE`. -/
def execDecAbs (w : Addr) (s : State) : Result := stepMem 3 (eaAbs w) (-1) s

/-- DEC, ZP,X (R165, R105), op code `$D6`. -/
def execDecZpX (z : Byte) (s : State) : Result := stepMem 2 (eaZpX s z) (-1) s

/-- DEC, ABS,X (R165, R107), op code `$DE`. -/
def execDecAbsX (w : Addr) (s : State) : Result := stepMem 3 (eaAbsX s w) (-1) s

/-- INX (R166, R109), op code `$E8`. -/
def execInx (s : State) : Result := indexX (s.x + 1) s

/-- INY (R167, R109), op code `$C8`. -/
def execIny (s : State) : Result := indexY (s.y + 1) s

/-- DEX (R168, R109), op code `$CA`. -/
def execDex (s : State) : Result := indexX (s.x - 1) s

/-- DEY (R169, R109), op code `$88`. -/
def execDey (s : State) : Result := indexY (s.y - 1) s

end Sys2Proof.Machine
end

