-- ==== Sys2Proof/Machine/Jump.lean ====
section
/-! DEFINITION. JMP, JSR, RTS (44_branch_jump.md R189 to R192). -/

namespace Sys2Proof.Machine

/-- A byte JSR pushes lands on one of its own operand bytes (R191, decision D31, log 10). Locations are compared, since
on a device with fewer address lines page one is seen in several places (R51). -/
def jsrOverwritesOperand (s : State) : Bool :=
  [s.loc (stackAddr s.sp), s.loc (stackAddr (s.sp - 1))].any
    fun pushed => [s.loc (s.pc + 1), s.loc (s.pc + 2)].contains pushed

/-- JMP, ABS (R189, R103), op code `$4C`. -/
def execJmpAbs (w : Addr) (s : State) : Result := done (s.withPc (eaAbs w))

/-- JMP, Indirect (R190, R113), op code `$6C`. -/
def execJmpInd (w : Addr) (s : State) : Result := done (s.withPc (indirectTarget s w))

/-- JSR, ABS (R191, R103), op code `$20`. -/
def execJsr (w : Addr) (s : State) : Result :=
  if jsrOverwritesOperand s then .refused (.pushOverOperand s.pc)
  else done (((s.push8 (hiByte (s.pc + 2))).push8 (loByte (s.pc + 2))).withPc (eaAbs w))

/-- RTS (R192, R109), op code `$60`. -/
def execRts (s : State) : Result :=
  done ((s.withPc (joinBytes (s.pulled .pull2 2) (s.pulled .pull1 1) + 1)).popped 2)

end Sys2Proof.Machine
end

