-- ==== Sys2Proof/Machine/Load.lean ====
section
/-! DEFINITION. Loads, LDA LDX LDY (41_load_store_transfer.md R120 to R122), and the register transfers (R126 to R131). -/

namespace Sys2Proof.Machine

/-- `A <- m` with N and Z, by an instruction of `n` bytes. -/
def loadA (n : Nat) (m : Byte) (s : State) : Result := done (((s.withA m).withP (s.p.setNZ m)).advance n)

/-- `X <- m` with N and Z, by an instruction of `n` bytes. -/
def loadX (n : Nat) (m : Byte) (s : State) : Result := done (((s.withX m).withP (s.p.setNZ m)).advance n)

/-- `Y <- m` with N and Z, by an instruction of `n` bytes. -/
def loadY (n : Nat) (m : Byte) (s : State) : Result := done (((s.withY m).withP (s.p.setNZ m)).advance n)

/-- LDA, (IND,X) (R120, R111), op code `$A1`. -/
def execLdaIndX (z : Byte) (s : State) : Result := loadA 2 (s.operand (eaIndX s z)) s

/-- LDA, ZP (R120, R104), op code `$A5`. -/
def execLdaZp (z : Byte) (s : State) : Result := loadA 2 (s.operand (eaZp z)) s

/-- LDA, IMM (R120, R102), op code `$A9`. -/
def execLdaImm (m : Byte) (s : State) : Result := loadA 2 m s

/-- LDA, ABS (R120, R103), op code `$AD`. -/
def execLdaAbs (w : Addr) (s : State) : Result := loadA 3 (s.operand (eaAbs w)) s

/-- LDA, (IND),Y (R120, R112), op code `$B1`. -/
def execLdaIndY (z : Byte) (s : State) : Result := loadA 2 (s.operand (eaIndY s z)) s

/-- LDA, ZP,X (R120, R105), op code `$B5`. -/
def execLdaZpX (z : Byte) (s : State) : Result := loadA 2 (s.operand (eaZpX s z)) s

/-- LDA, ABS,Y (R120, R108), op code `$B9`. -/
def execLdaAbsY (w : Addr) (s : State) : Result := loadA 3 (s.operand (eaAbsY s w)) s

/-- LDA, ABS,X (R120, R107), op code `$BD`. -/
def execLdaAbsX (w : Addr) (s : State) : Result := loadA 3 (s.operand (eaAbsX s w)) s

/-- LDX, IMM (R121, R102), op code `$A2`. -/
def execLdxImm (m : Byte) (s : State) : Result := loadX 2 m s

/-- LDX, ZP (R121, R104), op code `$A6`. -/
def execLdxZp (z : Byte) (s : State) : Result := loadX 2 (s.operand (eaZp z)) s

/-- LDX, ABS (R121, R103), op code `$AE`. -/
def execLdxAbs (w : Addr) (s : State) : Result := loadX 3 (s.operand (eaAbs w)) s

/-- LDX, ZP,Y (R121, R106), op code `$B6`. -/
def execLdxZpY (z : Byte) (s : State) : Result := loadX 2 (s.operand (eaZpY s z)) s

/-- LDX, ABS,Y (R121, R108), op code `$BE`. -/
def execLdxAbsY (w : Addr) (s : State) : Result := loadX 3 (s.operand (eaAbsY s w)) s

/-- LDY, IMM (R122, R102), op code `$A0`. -/
def execLdyImm (m : Byte) (s : State) : Result := loadY 2 m s

/-- LDY, ZP (R122, R104), op code `$A4`. -/
def execLdyZp (z : Byte) (s : State) : Result := loadY 2 (s.operand (eaZp z)) s

/-- LDY, ABS (R122, R103), op code `$AC`. -/
def execLdyAbs (w : Addr) (s : State) : Result := loadY 3 (s.operand (eaAbs w)) s

/-- LDY, ZP,X (R122, R105), op code `$B4`. -/
def execLdyZpX (z : Byte) (s : State) : Result := loadY 2 (s.operand (eaZpX s z)) s

/-- LDY, ABS,X (R122, R107), op code `$BC`. -/
def execLdyAbsX (w : Addr) (s : State) : Result := loadY 3 (s.operand (eaAbsX s w)) s

/-- TAX (R126, R109), op code `$AA`. -/
def execTax (s : State) : Result := loadX 1 s.a s

/-- TAY (R127, R109), op code `$A8`. -/
def execTay (s : State) : Result := loadY 1 s.a s

/-- TXA (R128, R109), op code `$8A`. -/
def execTxa (s : State) : Result := loadA 1 s.x s

/-- TYA (R129, R109), op code `$98`. -/
def execTya (s : State) : Result := loadA 1 s.y s

/-- TSX (R130, R109), op code `$BA`. -/
def execTsx (s : State) : Result := loadX 1 s.sp s

/-- TXS (R131, R109), op code `$9A`. -/
def execTxs (s : State) : Result := done ((s.withSp s.x).advance 1)

end Sys2Proof.Machine
end

