-- ==== Sys2Proof/Machine/Logic.lean ====
section
/-! DEFINITION. AND, ORA, EOR, BIT (42_arithmetic_logic.md R142 to R144, R148). -/

namespace Sys2Proof.Machine

/-- A logical result in `A` with N and Z; C and V are unchanged. -/
def logicA (n : Nat) (r : Byte) (s : State) : Result := done (((s.withA r).withP (s.p.setNZ r)).advance n)

/-- AND by an instruction of `n` bytes (R142). -/
def andA (n : Nat) (m : Byte) (s : State) : Result := logicA n (s.a &&& m) s

/-- ORA by an instruction of `n` bytes (R143). -/
def orA (n : Nat) (m : Byte) (s : State) : Result := logicA n (s.a ||| m) s

/-- EOR by an instruction of `n` bytes (R144). -/
def eorA (n : Nat) (m : Byte) (s : State) : Result := logicA n (s.a ^^^ m) s

/-- BIT by an instruction of `n` bytes (R148): Z from the AND, N and V from the memory operand. -/
def bitTest (n : Nat) (m : Byte) (s : State) : Result :=
  done ((s.withP { s.p with z := s.a &&& m == 0x00, n := m.getLsbD 7, v := m.getLsbD 6 }).advance n)

/-- AND, (IND,X) (R142, R111), op code `$21`. -/
def execAndIndX (z : Byte) (s : State) : Result := andA 2 (s.operand (eaIndX s z)) s

/-- AND, ZP (R142, R104), op code `$25`. -/
def execAndZp (z : Byte) (s : State) : Result := andA 2 (s.operand (eaZp z)) s

/-- AND, IMM (R142, R102), op code `$29`. -/
def execAndImm (m : Byte) (s : State) : Result := andA 2 m s

/-- AND, ABS (R142, R103), op code `$2D`. -/
def execAndAbs (w : Addr) (s : State) : Result := andA 3 (s.operand (eaAbs w)) s

/-- AND, (IND),Y (R142, R112), op code `$31`. -/
def execAndIndY (z : Byte) (s : State) : Result := andA 2 (s.operand (eaIndY s z)) s

/-- AND, ZP,X (R142, R105), op code `$35`. -/
def execAndZpX (z : Byte) (s : State) : Result := andA 2 (s.operand (eaZpX s z)) s

/-- AND, ABS,Y (R142, R108), op code `$39`. -/
def execAndAbsY (w : Addr) (s : State) : Result := andA 3 (s.operand (eaAbsY s w)) s

/-- AND, ABS,X (R142, R107), op code `$3D`. -/
def execAndAbsX (w : Addr) (s : State) : Result := andA 3 (s.operand (eaAbsX s w)) s

/-- ORA, (IND,X) (R143, R111), op code `$01`. -/
def execOraIndX (z : Byte) (s : State) : Result := orA 2 (s.operand (eaIndX s z)) s

/-- ORA, ZP (R143, R104), op code `$05`. -/
def execOraZp (z : Byte) (s : State) : Result := orA 2 (s.operand (eaZp z)) s

/-- ORA, IMM (R143, R102), op code `$09`. -/
def execOraImm (m : Byte) (s : State) : Result := orA 2 m s

/-- ORA, ABS (R143, R103), op code `$0D`. -/
def execOraAbs (w : Addr) (s : State) : Result := orA 3 (s.operand (eaAbs w)) s

/-- ORA, (IND),Y (R143, R112), op code `$11`. -/
def execOraIndY (z : Byte) (s : State) : Result := orA 2 (s.operand (eaIndY s z)) s

/-- ORA, ZP,X (R143, R105), op code `$15`. -/
def execOraZpX (z : Byte) (s : State) : Result := orA 2 (s.operand (eaZpX s z)) s

/-- ORA, ABS,Y (R143, R108), op code `$19`. -/
def execOraAbsY (w : Addr) (s : State) : Result := orA 3 (s.operand (eaAbsY s w)) s

/-- ORA, ABS,X (R143, R107), op code `$1D`. -/
def execOraAbsX (w : Addr) (s : State) : Result := orA 3 (s.operand (eaAbsX s w)) s

/-- EOR, (IND,X) (R144, R111), op code `$41`. -/
def execEorIndX (z : Byte) (s : State) : Result := eorA 2 (s.operand (eaIndX s z)) s

/-- EOR, ZP (R144, R104), op code `$45`. -/
def execEorZp (z : Byte) (s : State) : Result := eorA 2 (s.operand (eaZp z)) s

/-- EOR, IMM (R144, R102), op code `$49`. -/
def execEorImm (m : Byte) (s : State) : Result := eorA 2 m s

/-- EOR, ABS (R144, R103), op code `$4D`. -/
def execEorAbs (w : Addr) (s : State) : Result := eorA 3 (s.operand (eaAbs w)) s

/-- EOR, (IND),Y (R144, R112), op code `$51`. -/
def execEorIndY (z : Byte) (s : State) : Result := eorA 2 (s.operand (eaIndY s z)) s

/-- EOR, ZP,X (R144, R105), op code `$55`. -/
def execEorZpX (z : Byte) (s : State) : Result := eorA 2 (s.operand (eaZpX s z)) s

/-- EOR, ABS,Y (R144, R108), op code `$59`. -/
def execEorAbsY (w : Addr) (s : State) : Result := eorA 3 (s.operand (eaAbsY s w)) s

/-- EOR, ABS,X (R144, R107), op code `$5D`. -/
def execEorAbsX (w : Addr) (s : State) : Result := eorA 3 (s.operand (eaAbsX s w)) s

/-- BIT, ZP (R148, R104), op code `$24`. -/
def execBitZp (z : Byte) (s : State) : Result := bitTest 2 (s.operand (eaZp z)) s

/-- BIT, ABS (R148, R103), op code `$2C`. -/
def execBitAbs (w : Addr) (s : State) : Result := bitTest 3 (s.operand (eaAbs w)) s

end Sys2Proof.Machine
end

