-- ==== Sys2Proof/Machine/Shift.lean ====
section
/-! DEFINITION. ASL, LSR, ROL, ROR on the accumulator or on memory (43_shift_incdec.md R160 to R163, R170). -/

namespace Sys2Proof.Machine

/-- A shift of the accumulator: the result, its N and Z, and the bit that leaves in C. -/
def shiftA (f : Byte → Byte × Bool) (s : State) : Result :=
  let r := f s.a
  done (((s.withA r.1).withP (s.p.setNZC r.1 r.2)).advance 1)

/-- A shift of the byte at an effective address, one read and then one write (R170). -/
def shiftMem (n : Nat) (ea : Addr) (f : Byte → Byte × Bool) (s : State) : Result :=
  let r := f (s.operand ea)
  done (((s.memWrite ea r.1).withP (s.p.setNZC r.1 r.2)).advance n)

/-- ASL, ZP (R160, R104), op code `$06`. -/
def execAslZp (z : Byte) (s : State) : Result := shiftMem 2 (eaZp z) aslByte s

/-- ASL, Accum (R160, R101), op code `$0A`. -/
def execAslAcc (s : State) : Result := shiftA aslByte s

/-- ASL, ABS (R160, R103), op code `$0E`. -/
def execAslAbs (w : Addr) (s : State) : Result := shiftMem 3 (eaAbs w) aslByte s

/-- ASL, ZP,X (R160, R105), op code `$16`. -/
def execAslZpX (z : Byte) (s : State) : Result := shiftMem 2 (eaZpX s z) aslByte s

/-- ASL, ABS,X (R160, R107), op code `$1E`. -/
def execAslAbsX (w : Addr) (s : State) : Result := shiftMem 3 (eaAbsX s w) aslByte s

/-- LSR, ZP (R161, R104), op code `$46`. -/
def execLsrZp (z : Byte) (s : State) : Result := shiftMem 2 (eaZp z) lsrByte s

/-- LSR, Accum (R161, R101), op code `$4A`. -/
def execLsrAcc (s : State) : Result := shiftA lsrByte s

/-- LSR, ABS (R161, R103), op code `$4E`. -/
def execLsrAbs (w : Addr) (s : State) : Result := shiftMem 3 (eaAbs w) lsrByte s

/-- LSR, ZP,X (R161, R105), op code `$56`. -/
def execLsrZpX (z : Byte) (s : State) : Result := shiftMem 2 (eaZpX s z) lsrByte s

/-- LSR, ABS,X (R161, R107), op code `$5E`. -/
def execLsrAbsX (w : Addr) (s : State) : Result := shiftMem 3 (eaAbsX s w) lsrByte s

/-- ROL, ZP (R162, R104), op code `$26`. -/
def execRolZp (z : Byte) (s : State) : Result := shiftMem 2 (eaZp z) (rolByte s.p.c) s

/-- ROL, Accum (R162, R101), op code `$2A`. -/
def execRolAcc (s : State) : Result := shiftA (rolByte s.p.c) s

/-- ROL, ABS (R162, R103), op code `$2E`. -/
def execRolAbs (w : Addr) (s : State) : Result := shiftMem 3 (eaAbs w) (rolByte s.p.c) s

/-- ROL, ZP,X (R162, R105), op code `$36`. -/
def execRolZpX (z : Byte) (s : State) : Result := shiftMem 2 (eaZpX s z) (rolByte s.p.c) s

/-- ROL, ABS,X (R162, R107), op code `$3E`. -/
def execRolAbsX (w : Addr) (s : State) : Result := shiftMem 3 (eaAbsX s w) (rolByte s.p.c) s

/-- ROR, ZP (R163, R104), op code `$66`. -/
def execRorZp (z : Byte) (s : State) : Result := shiftMem 2 (eaZp z) (rorByte s.p.c) s

/-- ROR, Accum (R163, R101), op code `$6A`. -/
def execRorAcc (s : State) : Result := shiftA (rorByte s.p.c) s

/-- ROR, ABS (R163, R103), op code `$6E`. -/
def execRorAbs (w : Addr) (s : State) : Result := shiftMem 3 (eaAbs w) (rorByte s.p.c) s

/-- ROR, ZP,X (R163, R105), op code `$76`. -/
def execRorZpX (z : Byte) (s : State) : Result := shiftMem 2 (eaZpX s z) (rorByte s.p.c) s

/-- ROR, ABS,X (R163, R107), op code `$7E`. -/
def execRorAbsX (w : Addr) (s : State) : Result := shiftMem 3 (eaAbsX s w) (rorByte s.p.c) s

end Sys2Proof.Machine
end

