-- ==== Sys2Proof/Machine/Stack.lean ====
section
/-! DEFINITION. PHA, PHP, PLA, PLP and the flag instructions (45_stack_flag_system.md R200 to R210). -/

namespace Sys2Proof.Machine

/-- An instruction of CLI, SEI, PLP completes: the boundary after it remembers the old `I` (60_exceptions.md R226). -/
def maskChanged (before after : State) : Result := .next (after.finish (.afterMaskChange before.p.i))

/-- PHA (R200, R109), op code `$48`. -/
def execPha (s : State) : Result := done ((s.push8 s.a).advance 1)

/-- PHP (R201, R109), op code `$08`. -/
def execPhp (s : State) : Result := done ((s.push8 (s.p.image true)).advance 1)

/-- PLA (R202, R109), op code `$68`. -/
def execPla (s : State) : Result := loadA 1 (s.pulled .pull1 1) (s.popped 1)

/-- PLP (R203, R109), op code `$28`. -/
def execPlp (s : State) : Result :=
  maskChanged s (((s.withP (flagsOf (s.pulled .pull1 1))).popped 1).advance 1)

/-- CLC (R204, R109), op code `$18`. -/
def execClc (s : State) : Result := done ((s.withP { s.p with c := false }).advance 1)

/-- SEC (R205, R109), op code `$38`. -/
def execSec (s : State) : Result := done ((s.withP { s.p with c := true }).advance 1)

/-- CLI (R206, R109), op code `$58`. -/
def execCli (s : State) : Result := maskChanged s ((s.withP { s.p with i := false }).advance 1)

/-- SEI (R207, R109), op code `$78`. -/
def execSei (s : State) : Result := maskChanged s ((s.withP { s.p with i := true }).advance 1)

/-- CLD (R208, R109), op code `$D8`. -/
def execCld (s : State) : Result := done ((s.withP { s.p with d := false }).advance 1)

/-- SED (R209, R109), op code `$F8`. -/
def execSed (s : State) : Result := done ((s.withP { s.p with d := true }).advance 1)

/-- CLV (R210, R109), op code `$B8`. -/
def execClv (s : State) : Result := done ((s.withP { s.p with v := false }).advance 1)

end Sys2Proof.Machine
end

