-- ==== Sys2Proof/Machine/Store.lean ====
section
/-! DEFINITION. Stores, STA STX STY (41_load_store_transfer.md R123 to R125). -/

namespace Sys2Proof.Machine

/-- A register stored at an effective address by an instruction of `n` bytes; no flag is written. -/
def store (n : Nat) (ea : Addr) (v : Byte) (s : State) : Result := done ((s.memWrite ea v).advance n)

/-- STA, (IND,X) (R123, R111), op code `$81`. -/
def execStaIndX (z : Byte) (s : State) : Result := store 2 (eaIndX s z) s.a s

/-- STA, ZP (R123, R104), op code `$85`. -/
def execStaZp (z : Byte) (s : State) : Result := store 2 (eaZp z) s.a s

/-- STA, ABS (R123, R103), op code `$8D`. -/
def execStaAbs (w : Addr) (s : State) : Result := store 3 (eaAbs w) s.a s

/-- STA, (IND),Y (R123, R112), op code `$91`. -/
def execStaIndY (z : Byte) (s : State) : Result := store 2 (eaIndY s z) s.a s

/-- STA, ZP,X (R123, R105), op code `$95`. -/
def execStaZpX (z : Byte) (s : State) : Result := store 2 (eaZpX s z) s.a s

/-- STA, ABS,Y (R123, R108), op code `$99`. -/
def execStaAbsY (w : Addr) (s : State) : Result := store 3 (eaAbsY s w) s.a s

/-- STA, ABS,X (R123, R107), op code `$9D`. -/
def execStaAbsX (w : Addr) (s : State) : Result := store 3 (eaAbsX s w) s.a s

/-- STX, ZP (R124, R104), op code `$86`. -/
def execStxZp (z : Byte) (s : State) : Result := store 2 (eaZp z) s.x s

/-- STX, ABS (R124, R103), op code `$8E`. -/
def execStxAbs (w : Addr) (s : State) : Result := store 3 (eaAbs w) s.x s

/-- STX, ZP,Y (R124, R106), op code `$96`. -/
def execStxZpY (z : Byte) (s : State) : Result := store 2 (eaZpY s z) s.x s

/-- STY, ZP (R125, R104), op code `$84`. -/
def execStyZp (z : Byte) (s : State) : Result := store 2 (eaZp z) s.y s

/-- STY, ABS (R125, R103), op code `$8C`. -/
def execStyAbs (w : Addr) (s : State) : Result := store 3 (eaAbs w) s.y s

/-- STY, ZP,X (R125, R105), op code `$94`. -/
def execStyZpX (z : Byte) (s : State) : Result := store 2 (eaZpX s z) s.y s

end Sys2Proof.Machine
end

