-- ==== Sys2Proof/Machine/System.lean ====
section
/-! DEFINITION. NOP, BRK, RTI (45_stack_flag_system.md R211 to R213). -/

namespace Sys2Proof.Machine

/-- NOP (R211, R109), op code `$EA`. -/
def execNop (s : State) : Result := done (s.advance 1)

/-- BRK (R212, R109), op code `$00`. -/
def execBrk (s : State) : Result :=
  .next ((interruptEntry irqVector true (s.advance 2)).finish .afterSequence)

/-- RTI (R213, R109), op code `$40`. -/
def execRti (s : State) : Result := done (returnFromInterrupt s)

end Sys2Proof.Machine
end

