-- ==== Sys2Proof/Syntax.lean ====
section
/-! DEFINITION. The syntax of the 56 instructions in their 151 forms (30_encoding.md R84, R85): one constructor for
each defined op code, that is for each pair of mnemonic and addressing mode. -/

namespace Sys2Proof

/-- The thirteen addressing modes (30_encoding.md R81). -/
inductive Mode where
  | accum | imm | abs | zp | zpX | zpY | absX | absY | implied | relative | indX | indY | indirect
deriving DecidableEq, Repr

/-- The 56 mnemonics (R85, R87). -/
inductive Mnemonic where
  | adc | and | asl | bcc | bcs | beq | bit | bmi
  | bne | bpl | brk | bvc | bvs | clc | cld | cli
  | clv | cmp | cpx | cpy | dec | dex | dey | eor
  | inc | inx | iny | jmp | jsr | lda | ldx | ldy
  | lsr | nop | ora | pha | php | pla | plp | rol
  | ror | rti | rts | sbc | sec | sed | sei | sta
  | stx | sty | tax | tay | tsx | txa | txs | tya
deriving DecidableEq, Repr

/-- An instruction. An argument `m` is an immediate operand, `z` a zero page address, `w` a 16-bit address operand,
`r` a branch offset (30_encoding.md R82). -/
inductive Instr where
  | adcIndX (z : Byte)
  | adcZp (z : Byte)
  | adcImm (m : Byte)
  | adcAbs (w : Addr)
  | adcIndY (z : Byte)
  | adcZpX (z : Byte)
  | adcAbsY (w : Addr)
  | adcAbsX (w : Addr)
  | andIndX (z : Byte)
  | andZp (z : Byte)
  | andImm (m : Byte)
  | andAbs (w : Addr)
  | andIndY (z : Byte)
  | andZpX (z : Byte)
  | andAbsY (w : Addr)
  | andAbsX (w : Addr)
  | aslZp (z : Byte)
  | aslAcc
  | aslAbs (w : Addr)
  | aslZpX (z : Byte)
  | aslAbsX (w : Addr)
  | bcc (r : Byte)
  | bcs (r : Byte)
  | beq (r : Byte)
  | bitZp (z : Byte)
  | bitAbs (w : Addr)
  | bmi (r : Byte)
  | bne (r : Byte)
  | bpl (r : Byte)
  | brk
  | bvc (r : Byte)
  | bvs (r : Byte)
  | clc
  | cld
  | cli
  | clv
  | cmpIndX (z : Byte)
  | cmpZp (z : Byte)
  | cmpImm (m : Byte)
  | cmpAbs (w : Addr)
  | cmpIndY (z : Byte)
  | cmpZpX (z : Byte)
  | cmpAbsY (w : Addr)
  | cmpAbsX (w : Addr)
  | cpxImm (m : Byte)
  | cpxZp (z : Byte)
  | cpxAbs (w : Addr)
  | cpyImm (m : Byte)
  | cpyZp (z : Byte)
  | cpyAbs (w : Addr)
  | decZp (z : Byte)
  | decAbs (w : Addr)
  | decZpX (z : Byte)
  | decAbsX (w : Addr)
  | dex
  | dey
  | eorIndX (z : Byte)
  | eorZp (z : Byte)
  | eorImm (m : Byte)
  | eorAbs (w : Addr)
  | eorIndY (z : Byte)
  | eorZpX (z : Byte)
  | eorAbsY (w : Addr)
  | eorAbsX (w : Addr)
  | incZp (z : Byte)
  | incAbs (w : Addr)
  | incZpX (z : Byte)
  | incAbsX (w : Addr)
  | inx
  | iny
  | jmpAbs (w : Addr)
  | jmpInd (w : Addr)
  | jsr (w : Addr)
  | ldaIndX (z : Byte)
  | ldaZp (z : Byte)
  | ldaImm (m : Byte)
  | ldaAbs (w : Addr)
  | ldaIndY (z : Byte)
  | ldaZpX (z : Byte)
  | ldaAbsY (w : Addr)
  | ldaAbsX (w : Addr)
  | ldxImm (m : Byte)
  | ldxZp (z : Byte)
  | ldxAbs (w : Addr)
  | ldxZpY (z : Byte)
  | ldxAbsY (w : Addr)
  | ldyImm (m : Byte)
  | ldyZp (z : Byte)
  | ldyAbs (w : Addr)
  | ldyZpX (z : Byte)
  | ldyAbsX (w : Addr)
  | lsrZp (z : Byte)
  | lsrAcc
  | lsrAbs (w : Addr)
  | lsrZpX (z : Byte)
  | lsrAbsX (w : Addr)
  | nop
  | oraIndX (z : Byte)
  | oraZp (z : Byte)
  | oraImm (m : Byte)
  | oraAbs (w : Addr)
  | oraIndY (z : Byte)
  | oraZpX (z : Byte)
  | oraAbsY (w : Addr)
  | oraAbsX (w : Addr)
  | pha
  | php
  | pla
  | plp
  | rolZp (z : Byte)
  | rolAcc
  | rolAbs (w : Addr)
  | rolZpX (z : Byte)
  | rolAbsX (w : Addr)
  | rorZp (z : Byte)
  | rorAcc
  | rorAbs (w : Addr)
  | rorZpX (z : Byte)
  | rorAbsX (w : Addr)
  | rti
  | rts
  | sbcIndX (z : Byte)
  | sbcZp (z : Byte)
  | sbcImm (m : Byte)
  | sbcAbs (w : Addr)
  | sbcIndY (z : Byte)
  | sbcZpX (z : Byte)
  | sbcAbsY (w : Addr)
  | sbcAbsX (w : Addr)
  | sec
  | sed
  | sei
  | staIndX (z : Byte)
  | staZp (z : Byte)
  | staAbs (w : Addr)
  | staIndY (z : Byte)
  | staZpX (z : Byte)
  | staAbsY (w : Addr)
  | staAbsX (w : Addr)
  | stxZp (z : Byte)
  | stxAbs (w : Addr)
  | stxZpY (z : Byte)
  | styZp (z : Byte)
  | styAbs (w : Addr)
  | styZpX (z : Byte)
  | tax
  | tay
  | tsx
  | txa
  | txs
  | tya
deriving DecidableEq, Repr

end Sys2Proof
end

