-- ==== Sys2Proof/WellFormed.lean ====
section
/-! DEFINITION. What an instruction is a form of (30_encoding.md R81, R85) and which forms are well-formed. Every
operand value is legal (R82), so the one check is that the pair of mnemonic and mode stands in the table of R85. -/

namespace Sys2Proof

/-- The length in bytes of an instruction of a mode (R81): it depends on the mode alone (R83). -/
def Mode.length : Mode → Nat
  | .accum | .implied => 1
  | .imm | .zp | .zpX | .zpY | .relative | .indX | .indY => 2
  | .abs | .absX | .absY | .indirect => 3

/-- The modes a mnemonic has (R85, row by row). -/
def Mnemonic.modes : Mnemonic → List Mode
  | .adc => [.imm, .zp, .zpX, .abs, .absX, .absY, .indX, .indY]
  | .and => [.imm, .zp, .zpX, .abs, .absX, .absY, .indX, .indY]
  | .asl => [.accum, .zp, .zpX, .abs, .absX]
  | .bcc => [.relative]
  | .bcs => [.relative]
  | .beq => [.relative]
  | .bit => [.zp, .abs]
  | .bmi => [.relative]
  | .bne => [.relative]
  | .bpl => [.relative]
  | .brk => [.implied]
  | .bvc => [.relative]
  | .bvs => [.relative]
  | .clc => [.implied]
  | .cld => [.implied]
  | .cli => [.implied]
  | .clv => [.implied]
  | .cmp => [.imm, .zp, .zpX, .abs, .absX, .absY, .indX, .indY]
  | .cpx => [.imm, .zp, .abs]
  | .cpy => [.imm, .zp, .abs]
  | .dec => [.zp, .zpX, .abs, .absX]
  | .dex => [.implied]
  | .dey => [.implied]
  | .eor => [.imm, .zp, .zpX, .abs, .absX, .absY, .indX, .indY]
  | .inc => [.zp, .zpX, .abs, .absX]
  | .inx => [.implied]
  | .iny => [.implied]
  | .jmp => [.abs, .indirect]
  | .jsr => [.abs]
  | .lda => [.imm, .zp, .zpX, .abs, .absX, .absY, .indX, .indY]
  | .ldx => [.imm, .zp, .zpY, .abs, .absY]
  | .ldy => [.imm, .zp, .zpX, .abs, .absX]
  | .lsr => [.accum, .zp, .zpX, .abs, .absX]
  | .nop => [.implied]
  | .ora => [.imm, .zp, .zpX, .abs, .absX, .absY, .indX, .indY]
  | .pha => [.implied]
  | .php => [.implied]
  | .pla => [.implied]
  | .plp => [.implied]
  | .rol => [.accum, .zp, .zpX, .abs, .absX]
  | .ror => [.accum, .zp, .zpX, .abs, .absX]
  | .rti => [.implied]
  | .rts => [.implied]
  | .sbc => [.imm, .zp, .zpX, .abs, .absX, .absY, .indX, .indY]
  | .sec => [.implied]
  | .sed => [.implied]
  | .sei => [.implied]
  | .sta => [.zp, .zpX, .abs, .absX, .absY, .indX, .indY]
  | .stx => [.zp, .zpY, .abs]
  | .sty => [.zp, .zpX, .abs]
  | .tax => [.implied]
  | .tay => [.implied]
  | .tsx => [.implied]
  | .txa => [.implied]
  | .txs => [.implied]
  | .tya => [.implied]

/-- A pair of mnemonic and mode is a defined form (R85). -/
def formDefined (m : Mnemonic) (mode : Mode) : Bool := m.modes.contains mode

/-- The mnemonic of an instruction. -/
def Instr.mnemonic : Instr → Mnemonic
  | .adcIndX _ | .adcZp _ | .adcImm _ | .adcAbs _ | .adcIndY _ | .adcZpX _ | .adcAbsY _ | .adcAbsX _ => .adc
  | .andIndX _ | .andZp _ | .andImm _ | .andAbs _ | .andIndY _ | .andZpX _ | .andAbsY _ | .andAbsX _ => .and
  | .aslZp _ | .aslAcc | .aslAbs _ | .aslZpX _ | .aslAbsX _ => .asl
  | .bcc _ => .bcc
  | .bcs _ => .bcs
  | .beq _ => .beq
  | .bitZp _ | .bitAbs _ => .bit
  | .bmi _ => .bmi
  | .bne _ => .bne
  | .bpl _ => .bpl
  | .brk => .brk
  | .bvc _ => .bvc
  | .bvs _ => .bvs
  | .clc => .clc
  | .cld => .cld
  | .cli => .cli
  | .clv => .clv
  | .cmpIndX _ | .cmpZp _ | .cmpImm _ | .cmpAbs _ | .cmpIndY _ | .cmpZpX _ | .cmpAbsY _ | .cmpAbsX _ => .cmp
  | .cpxImm _ | .cpxZp _ | .cpxAbs _ => .cpx
  | .cpyImm _ | .cpyZp _ | .cpyAbs _ => .cpy
  | .decZp _ | .decAbs _ | .decZpX _ | .decAbsX _ => .dec
  | .dex => .dex
  | .dey => .dey
  | .eorIndX _ | .eorZp _ | .eorImm _ | .eorAbs _ | .eorIndY _ | .eorZpX _ | .eorAbsY _ | .eorAbsX _ => .eor
  | .incZp _ | .incAbs _ | .incZpX _ | .incAbsX _ => .inc
  | .inx => .inx
  | .iny => .iny
  | .jmpAbs _ | .jmpInd _ => .jmp
  | .jsr _ => .jsr
  | .ldaIndX _ | .ldaZp _ | .ldaImm _ | .ldaAbs _ | .ldaIndY _ | .ldaZpX _ | .ldaAbsY _ | .ldaAbsX _ => .lda
  | .ldxImm _ | .ldxZp _ | .ldxAbs _ | .ldxZpY _ | .ldxAbsY _ => .ldx
  | .ldyImm _ | .ldyZp _ | .ldyAbs _ | .ldyZpX _ | .ldyAbsX _ => .ldy
  | .lsrZp _ | .lsrAcc | .lsrAbs _ | .lsrZpX _ | .lsrAbsX _ => .lsr
  | .nop => .nop
  | .oraIndX _ | .oraZp _ | .oraImm _ | .oraAbs _ | .oraIndY _ | .oraZpX _ | .oraAbsY _ | .oraAbsX _ => .ora
  | .pha => .pha
  | .php => .php
  | .pla => .pla
  | .plp => .plp
  | .rolZp _ | .rolAcc | .rolAbs _ | .rolZpX _ | .rolAbsX _ => .rol
  | .rorZp _ | .rorAcc | .rorAbs _ | .rorZpX _ | .rorAbsX _ => .ror
  | .rti => .rti
  | .rts => .rts
  | .sbcIndX _ | .sbcZp _ | .sbcImm _ | .sbcAbs _ | .sbcIndY _ | .sbcZpX _ | .sbcAbsY _ | .sbcAbsX _ => .sbc
  | .sec => .sec
  | .sed => .sed
  | .sei => .sei
  | .staIndX _ | .staZp _ | .staAbs _ | .staIndY _ | .staZpX _ | .staAbsY _ | .staAbsX _ => .sta
  | .stxZp _ | .stxAbs _ | .stxZpY _ => .stx
  | .styZp _ | .styAbs _ | .styZpX _ => .sty
  | .tax => .tax
  | .tay => .tay
  | .tsx => .tsx
  | .txa => .txa
  | .txs => .txs
  | .tya => .tya

/-- The addressing mode of an instruction. -/
def Instr.mode : Instr → Mode
  | .aslAcc | .lsrAcc | .rolAcc | .rorAcc => .accum
  | .adcImm _ | .andImm _ | .cmpImm _ | .cpxImm _ | .cpyImm _ | .eorImm _ | .ldaImm _ | .ldxImm _
  | .ldyImm _ | .oraImm _ | .sbcImm _ => .imm
  | .adcZp _ | .andZp _ | .aslZp _ | .bitZp _ | .cmpZp _ | .cpxZp _ | .cpyZp _ | .decZp _
  | .eorZp _ | .incZp _ | .ldaZp _ | .ldxZp _ | .ldyZp _ | .lsrZp _ | .oraZp _ | .rolZp _
  | .rorZp _ | .sbcZp _ | .staZp _ | .stxZp _ | .styZp _ => .zp
  | .adcZpX _ | .andZpX _ | .aslZpX _ | .cmpZpX _ | .decZpX _ | .eorZpX _ | .incZpX _ | .ldaZpX _
  | .ldyZpX _ | .lsrZpX _ | .oraZpX _ | .rolZpX _ | .rorZpX _ | .sbcZpX _ | .staZpX _ | .styZpX _ => .zpX
  | .ldxZpY _ | .stxZpY _ => .zpY
  | .adcAbs _ | .andAbs _ | .aslAbs _ | .bitAbs _ | .cmpAbs _ | .cpxAbs _ | .cpyAbs _ | .decAbs _
  | .eorAbs _ | .incAbs _ | .jmpAbs _ | .jsr _ | .ldaAbs _ | .ldxAbs _ | .ldyAbs _ | .lsrAbs _
  | .oraAbs _ | .rolAbs _ | .rorAbs _ | .sbcAbs _ | .staAbs _ | .stxAbs _ | .styAbs _ => .abs
  | .adcAbsX _ | .andAbsX _ | .aslAbsX _ | .cmpAbsX _ | .decAbsX _ | .eorAbsX _ | .incAbsX _ | .ldaAbsX _
  | .ldyAbsX _ | .lsrAbsX _ | .oraAbsX _ | .rolAbsX _ | .rorAbsX _ | .sbcAbsX _ | .staAbsX _ => .absX
  | .adcAbsY _ | .andAbsY _ | .cmpAbsY _ | .eorAbsY _ | .ldaAbsY _ | .ldxAbsY _ | .oraAbsY _ | .sbcAbsY _
  | .staAbsY _ => .absY
  | .adcIndX _ | .andIndX _ | .cmpIndX _ | .eorIndX _ | .ldaIndX _ | .oraIndX _ | .sbcIndX _ | .staIndX _ => .indX
  | .adcIndY _ | .andIndY _ | .cmpIndY _ | .eorIndY _ | .ldaIndY _ | .oraIndY _ | .sbcIndY _ | .staIndY _ => .indY
  | .jmpInd _ => .indirect
  | .bcc _ | .bcs _ | .beq _ | .bmi _ | .bne _ | .bpl _ | .bvc _ | .bvs _ => .relative
  | .brk | .clc | .cld | .cli | .clv | .dex | .dey | .inx
  | .iny | .nop | .pha | .php | .pla | .plp | .rti | .rts
  | .sec | .sed | .sei | .tax | .tay | .tsx | .txa | .txs
  | .tya => .implied

/-- An instruction is well-formed when its form is defined. Every operand value is legal (R82). -/
def Instr.wellFormed (i : Instr) : Bool := formDefined i.mnemonic i.mode

end Sys2Proof
end

