-- ==== Sys2Proof/Decode.lean ====
section
/-! DEFINITION. The decoder, total on any bytes, and after it the encoder (30_encoding.md R80 to R86). -/

namespace Sys2Proof

open Machine (joinBytes loByte hiByte)

/-- What an op code byte selects (R80): an instruction, or an instruction still to be given its operand. -/
inductive Form where
  /-- One byte. -/
  | bare (i : Instr)
  /-- Two bytes: the operand is the second. -/
  | byte (f : Byte → Instr)
  /-- Three bytes: the operand is the third and the second, joined (R82). -/
  | word (f : Addr → Instr)

/-- The op code matrix (R84). The 105 values it leaves blank select nothing (R86). -/
def formOf (op : Byte) : Option Form :=
  match op.toNat with
  | 0x00 => some (.bare .brk)
  | 0x01 => some (.byte .oraIndX)
  | 0x05 => some (.byte .oraZp)
  | 0x06 => some (.byte .aslZp)
  | 0x08 => some (.bare .php)
  | 0x09 => some (.byte .oraImm)
  | 0x0A => some (.bare .aslAcc)
  | 0x0D => some (.word .oraAbs)
  | 0x0E => some (.word .aslAbs)
  | 0x10 => some (.byte .bpl)
  | 0x11 => some (.byte .oraIndY)
  | 0x15 => some (.byte .oraZpX)
  | 0x16 => some (.byte .aslZpX)
  | 0x18 => some (.bare .clc)
  | 0x19 => some (.word .oraAbsY)
  | 0x1D => some (.word .oraAbsX)
  | 0x1E => some (.word .aslAbsX)
  | 0x20 => some (.word .jsr)
  | 0x21 => some (.byte .andIndX)
  | 0x24 => some (.byte .bitZp)
  | 0x25 => some (.byte .andZp)
  | 0x26 => some (.byte .rolZp)
  | 0x28 => some (.bare .plp)
  | 0x29 => some (.byte .andImm)
  | 0x2A => some (.bare .rolAcc)
  | 0x2C => some (.word .bitAbs)
  | 0x2D => some (.word .andAbs)
  | 0x2E => some (.word .rolAbs)
  | 0x30 => some (.byte .bmi)
  | 0x31 => some (.byte .andIndY)
  | 0x35 => some (.byte .andZpX)
  | 0x36 => some (.byte .rolZpX)
  | 0x38 => some (.bare .sec)
  | 0x39 => some (.word .andAbsY)
  | 0x3D => some (.word .andAbsX)
  | 0x3E => some (.word .rolAbsX)
  | 0x40 => some (.bare .rti)
  | 0x41 => some (.byte .eorIndX)
  | 0x45 => some (.byte .eorZp)
  | 0x46 => some (.byte .lsrZp)
  | 0x48 => some (.bare .pha)
  | 0x49 => some (.byte .eorImm)
  | 0x4A => some (.bare .lsrAcc)
  | 0x4C => some (.word .jmpAbs)
  | 0x4D => some (.word .eorAbs)
  | 0x4E => some (.word .lsrAbs)
  | 0x50 => some (.byte .bvc)
  | 0x51 => some (.byte .eorIndY)
  | 0x55 => some (.byte .eorZpX)
  | 0x56 => some (.byte .lsrZpX)
  | 0x58 => some (.bare .cli)
  | 0x59 => some (.word .eorAbsY)
  | 0x5D => some (.word .eorAbsX)
  | 0x5E => some (.word .lsrAbsX)
  | 0x60 => some (.bare .rts)
  | 0x61 => some (.byte .adcIndX)
  | 0x65 => some (.byte .adcZp)
  | 0x66 => some (.byte .rorZp)
  | 0x68 => some (.bare .pla)
  | 0x69 => some (.byte .adcImm)
  | 0x6A => some (.bare .rorAcc)
  | 0x6C => some (.word .jmpInd)
  | 0x6D => some (.word .adcAbs)
  | 0x6E => some (.word .rorAbs)
  | 0x70 => some (.byte .bvs)
  | 0x71 => some (.byte .adcIndY)
  | 0x75 => some (.byte .adcZpX)
  | 0x76 => some (.byte .rorZpX)
  | 0x78 => some (.bare .sei)
  | 0x79 => some (.word .adcAbsY)
  | 0x7D => some (.word .adcAbsX)
  | 0x7E => some (.word .rorAbsX)
  | 0x81 => some (.byte .staIndX)
  | 0x84 => some (.byte .styZp)
  | 0x85 => some (.byte .staZp)
  | 0x86 => some (.byte .stxZp)
  | 0x88 => some (.bare .dey)
  | 0x8A => some (.bare .txa)
  | 0x8C => some (.word .styAbs)
  | 0x8D => some (.word .staAbs)
  | 0x8E => some (.word .stxAbs)
  | 0x90 => some (.byte .bcc)
  | 0x91 => some (.byte .staIndY)
  | 0x94 => some (.byte .styZpX)
  | 0x95 => some (.byte .staZpX)
  | 0x96 => some (.byte .stxZpY)
  | 0x98 => some (.bare .tya)
  | 0x99 => some (.word .staAbsY)
  | 0x9A => some (.bare .txs)
  | 0x9D => some (.word .staAbsX)
  | 0xA0 => some (.byte .ldyImm)
  | 0xA1 => some (.byte .ldaIndX)
  | 0xA2 => some (.byte .ldxImm)
  | 0xA4 => some (.byte .ldyZp)
  | 0xA5 => some (.byte .ldaZp)
  | 0xA6 => some (.byte .ldxZp)
  | 0xA8 => some (.bare .tay)
  | 0xA9 => some (.byte .ldaImm)
  | 0xAA => some (.bare .tax)
  | 0xAC => some (.word .ldyAbs)
  | 0xAD => some (.word .ldaAbs)
  | 0xAE => some (.word .ldxAbs)
  | 0xB0 => some (.byte .bcs)
  | 0xB1 => some (.byte .ldaIndY)
  | 0xB4 => some (.byte .ldyZpX)
  | 0xB5 => some (.byte .ldaZpX)
  | 0xB6 => some (.byte .ldxZpY)
  | 0xB8 => some (.bare .clv)
  | 0xB9 => some (.word .ldaAbsY)
  | 0xBA => some (.bare .tsx)
  | 0xBC => some (.word .ldyAbsX)
  | 0xBD => some (.word .ldaAbsX)
  | 0xBE => some (.word .ldxAbsY)
  | 0xC0 => some (.byte .cpyImm)
  | 0xC1 => some (.byte .cmpIndX)
  | 0xC4 => some (.byte .cpyZp)
  | 0xC5 => some (.byte .cmpZp)
  | 0xC6 => some (.byte .decZp)
  | 0xC8 => some (.bare .iny)
  | 0xC9 => some (.byte .cmpImm)
  | 0xCA => some (.bare .dex)
  | 0xCC => some (.word .cpyAbs)
  | 0xCD => some (.word .cmpAbs)
  | 0xCE => some (.word .decAbs)
  | 0xD0 => some (.byte .bne)
  | 0xD1 => some (.byte .cmpIndY)
  | 0xD5 => some (.byte .cmpZpX)
  | 0xD6 => some (.byte .decZpX)
  | 0xD8 => some (.bare .cld)
  | 0xD9 => some (.word .cmpAbsY)
  | 0xDD => some (.word .cmpAbsX)
  | 0xDE => some (.word .decAbsX)
  | 0xE0 => some (.byte .cpxImm)
  | 0xE1 => some (.byte .sbcIndX)
  | 0xE4 => some (.byte .cpxZp)
  | 0xE5 => some (.byte .sbcZp)
  | 0xE6 => some (.byte .incZp)
  | 0xE8 => some (.bare .inx)
  | 0xE9 => some (.byte .sbcImm)
  | 0xEA => some (.bare .nop)
  | 0xEC => some (.word .cpxAbs)
  | 0xED => some (.word .sbcAbs)
  | 0xEE => some (.word .incAbs)
  | 0xF0 => some (.byte .beq)
  | 0xF1 => some (.byte .sbcIndY)
  | 0xF5 => some (.byte .sbcZpX)
  | 0xF6 => some (.byte .incZpX)
  | 0xF8 => some (.bare .sed)
  | 0xF9 => some (.word .sbcAbsY)
  | 0xFD => some (.word .sbcAbsX)
  | 0xFE => some (.word .incAbsX)
  | _ => none

/-- The length of the instruction an op code byte begins, by look-up (R83). -/
def opcodeLength (op : Byte) : Option Nat :=
  match formOf op with
  | none => none
  | some (.bare _) => some 1
  | some (.byte _) => some 2
  | some (.word _) => some 3

/-- Why bytes are no instruction. -/
inductive DecodeError where
  /-- There is no byte. -/
  | noBytes
  /-- The op code is one of the 105 undefined ones (R86). -/
  | undefinedOpcode (op : Byte)
  /-- The operand bytes of a defined op code are missing. -/
  | truncated (op : Byte)
deriving DecidableEq, Repr

/-- The decoder (R83): the instruction the bytes begin with and the bytes after it. -/
def decode : List Byte → Except DecodeError (Instr × List Byte)
  | [] => .error .noBytes
  | op :: rest =>
    match formOf op with
    | none => .error (.undefinedOpcode op)
    | some (.bare i) => .ok (i, rest)
    | some (.byte f) =>
      match rest with
      | b1 :: rest => .ok (f b1, rest)
      | [] => .error (.truncated op)
    | some (.word f) =>
      match rest with
      | b1 :: b2 :: rest => .ok (f (joinBytes b2 b1), rest)
      | [_] => .error (.truncated op)
      | [] => .error (.truncated op)

/-- The first `n` bytes of a number, least significant first. -/
def bytesOf : Nat → Nat → List Byte
  | 0, _ => []
  | n + 1, w => BitVec.ofNat 8 w :: bytesOf n (w / 256)

/-- The instruction the decoder reads from the `nbits` bits of `w`, numbered as spec/opcode_table.json numbers them:
bits 7 to 0 are the first byte, bits 15 to 8 the second. Bytes above `nbits` are zero. -/
def decodeTableWord (nbits w : Nat) : Option Instr :=
  match decode (bytesOf 3 (w % 2 ^ nbits)) with
  | .ok (i, _) => some i
  | .error _ => none

/-- The encoder: the bytes of an instruction, op code first, an address operand low byte first (R82, R84). -/
def encode : Instr → List Byte
  | .adcIndX z => [0x61, z]
  | .adcZp z => [0x65, z]
  | .adcImm m => [0x69, m]
  | .adcAbs w => [0x6D, loByte w, hiByte w]
  | .adcIndY z => [0x71, z]
  | .adcZpX z => [0x75, z]
  | .adcAbsY w => [0x79, loByte w, hiByte w]
  | .adcAbsX w => [0x7D, loByte w, hiByte w]
  | .andIndX z => [0x21, z]
  | .andZp z => [0x25, z]
  | .andImm m => [0x29, m]
  | .andAbs w => [0x2D, loByte w, hiByte w]
  | .andIndY z => [0x31, z]
  | .andZpX z => [0x35, z]
  | .andAbsY w => [0x39, loByte w, hiByte w]
  | .andAbsX w => [0x3D, loByte w, hiByte w]
  | .aslZp z => [0x06, z]
  | .aslAcc => [0x0A]
  | .aslAbs w => [0x0E, loByte w, hiByte w]
  | .aslZpX z => [0x16, z]
  | .aslAbsX w => [0x1E, loByte w, hiByte w]
  | .bcc r => [0x90, r]
  | .bcs r => [0xB0, r]
  | .beq r => [0xF0, r]
  | .bitZp z => [0x24, z]
  | .bitAbs w => [0x2C, loByte w, hiByte w]
  | .bmi r => [0x30, r]
  | .bne r => [0xD0, r]
  | .bpl r => [0x10, r]
  | .brk => [0x00]
  | .bvc r => [0x50, r]
  | .bvs r => [0x70, r]
  | .clc => [0x18]
  | .cld => [0xD8]
  | .cli => [0x58]
  | .clv => [0xB8]
  | .cmpIndX z => [0xC1, z]
  | .cmpZp z => [0xC5, z]
  | .cmpImm m => [0xC9, m]
  | .cmpAbs w => [0xCD, loByte w, hiByte w]
  | .cmpIndY z => [0xD1, z]
  | .cmpZpX z => [0xD5, z]
  | .cmpAbsY w => [0xD9, loByte w, hiByte w]
  | .cmpAbsX w => [0xDD, loByte w, hiByte w]
  | .cpxImm m => [0xE0, m]
  | .cpxZp z => [0xE4, z]
  | .cpxAbs w => [0xEC, loByte w, hiByte w]
  | .cpyImm m => [0xC0, m]
  | .cpyZp z => [0xC4, z]
  | .cpyAbs w => [0xCC, loByte w, hiByte w]
  | .decZp z => [0xC6, z]
  | .decAbs w => [0xCE, loByte w, hiByte w]
  | .decZpX z => [0xD6, z]
  | .decAbsX w => [0xDE, loByte w, hiByte w]
  | .dex => [0xCA]
  | .dey => [0x88]
  | .eorIndX z => [0x41, z]
  | .eorZp z => [0x45, z]
  | .eorImm m => [0x49, m]
  | .eorAbs w => [0x4D, loByte w, hiByte w]
  | .eorIndY z => [0x51, z]
  | .eorZpX z => [0x55, z]
  | .eorAbsY w => [0x59, loByte w, hiByte w]
  | .eorAbsX w => [0x5D, loByte w, hiByte w]
  | .incZp z => [0xE6, z]
  | .incAbs w => [0xEE, loByte w, hiByte w]
  | .incZpX z => [0xF6, z]
  | .incAbsX w => [0xFE, loByte w, hiByte w]
  | .inx => [0xE8]
  | .iny => [0xC8]
  | .jmpAbs w => [0x4C, loByte w, hiByte w]
  | .jmpInd w => [0x6C, loByte w, hiByte w]
  | .jsr w => [0x20, loByte w, hiByte w]
  | .ldaIndX z => [0xA1, z]
  | .ldaZp z => [0xA5, z]
  | .ldaImm m => [0xA9, m]
  | .ldaAbs w => [0xAD, loByte w, hiByte w]
  | .ldaIndY z => [0xB1, z]
  | .ldaZpX z => [0xB5, z]
  | .ldaAbsY w => [0xB9, loByte w, hiByte w]
  | .ldaAbsX w => [0xBD, loByte w, hiByte w]
  | .ldxImm m => [0xA2, m]
  | .ldxZp z => [0xA6, z]
  | .ldxAbs w => [0xAE, loByte w, hiByte w]
  | .ldxZpY z => [0xB6, z]
  | .ldxAbsY w => [0xBE, loByte w, hiByte w]
  | .ldyImm m => [0xA0, m]
  | .ldyZp z => [0xA4, z]
  | .ldyAbs w => [0xAC, loByte w, hiByte w]
  | .ldyZpX z => [0xB4, z]
  | .ldyAbsX w => [0xBC, loByte w, hiByte w]
  | .lsrZp z => [0x46, z]
  | .lsrAcc => [0x4A]
  | .lsrAbs w => [0x4E, loByte w, hiByte w]
  | .lsrZpX z => [0x56, z]
  | .lsrAbsX w => [0x5E, loByte w, hiByte w]
  | .nop => [0xEA]
  | .oraIndX z => [0x01, z]
  | .oraZp z => [0x05, z]
  | .oraImm m => [0x09, m]
  | .oraAbs w => [0x0D, loByte w, hiByte w]
  | .oraIndY z => [0x11, z]
  | .oraZpX z => [0x15, z]
  | .oraAbsY w => [0x19, loByte w, hiByte w]
  | .oraAbsX w => [0x1D, loByte w, hiByte w]
  | .pha => [0x48]
  | .php => [0x08]
  | .pla => [0x68]
  | .plp => [0x28]
  | .rolZp z => [0x26, z]
  | .rolAcc => [0x2A]
  | .rolAbs w => [0x2E, loByte w, hiByte w]
  | .rolZpX z => [0x36, z]
  | .rolAbsX w => [0x3E, loByte w, hiByte w]
  | .rorZp z => [0x66, z]
  | .rorAcc => [0x6A]
  | .rorAbs w => [0x6E, loByte w, hiByte w]
  | .rorZpX z => [0x76, z]
  | .rorAbsX w => [0x7E, loByte w, hiByte w]
  | .rti => [0x40]
  | .rts => [0x60]
  | .sbcIndX z => [0xE1, z]
  | .sbcZp z => [0xE5, z]
  | .sbcImm m => [0xE9, m]
  | .sbcAbs w => [0xED, loByte w, hiByte w]
  | .sbcIndY z => [0xF1, z]
  | .sbcZpX z => [0xF5, z]
  | .sbcAbsY w => [0xF9, loByte w, hiByte w]
  | .sbcAbsX w => [0xFD, loByte w, hiByte w]
  | .sec => [0x38]
  | .sed => [0xF8]
  | .sei => [0x78]
  | .staIndX z => [0x81, z]
  | .staZp z => [0x85, z]
  | .staAbs w => [0x8D, loByte w, hiByte w]
  | .staIndY z => [0x91, z]
  | .staZpX z => [0x95, z]
  | .staAbsY w => [0x99, loByte w, hiByte w]
  | .staAbsX w => [0x9D, loByte w, hiByte w]
  | .stxZp z => [0x86, z]
  | .stxAbs w => [0x8E, loByte w, hiByte w]
  | .stxZpY z => [0x96, z]
  | .styZp z => [0x84, z]
  | .styAbs w => [0x8C, loByte w, hiByte w]
  | .styZpX z => [0x94, z]
  | .tax => [0xAA]
  | .tay => [0xA8]
  | .tsx => [0xBA]
  | .txa => [0x8A]
  | .txs => [0x9A]
  | .tya => [0x98]

end Sys2Proof
end

