-- ==== Sys2Proof/Machine/Fetch.lean ====
section
/-! DEFINITION. Fetching an instruction's bytes (10_state.md R26; 30_encoding.md R83), and placing bytes where the
next instruction is fetched. -/

namespace Sys2Proof.Machine

/-- The bytes of the instruction at `PC`: the op code, and as many operand bytes as it calls for (R26, R83). An
undefined op code calls for none. -/
def fetchBytes (s : State) : List Byte :=
  let op := s.memRead .opcode s.pc
  match opcodeLength op with
  | some 2 => [op, s.memRead .operand1 (s.pc + 1)]
  | some 3 => [op, s.memRead .operand1 (s.pc + 1), s.memRead .operand2 (s.pc + 2)]
  | _ => [op]

/-- The instruction at `PC`, or the op code byte when it is undefined. The bytes fetched are as many as the op code
calls for, so the decoder never finds them truncated (`fetchInstr_error` in Laws/Ops.lean). -/
def fetchInstr (s : State) : Except Byte Instr :=
  match decode (fetchBytes s) with
  | .ok (i, _) => .ok i
  | .error _ => .error (s.memRead .opcode s.pc)

/-- Bytes put into memory at consecutive addresses, as a load of a program from outside does (log 32). -/
def placeBytes : List Byte → Addr → State → State
  | [], _, s => s
  | b :: bs, a, s => placeBytes bs (a + 1) (s.withMem (Memory.write s.mem (s.loc a) b))

end Sys2Proof.Machine
end

