-- ==== Sys2Proof/Machine/Timing.lean ====
section
/-! DEFINITION. Machine cycles (70_reset_and_hazards.md R270, R271; 40_addressing_modes.md R114). No other definition
but the counter `cycles` depends on them (log 18). -/

namespace Sys2Proof.Machine

/-- 1 where the addition of an index to the low byte of a base carries: the page boundary is crossed (R114). -/
def pageCross (low index : Byte) : Nat := if 256 ≤ low.toNat + index.toNat then 1 else 0

/-- The page crossing of `(IND),Y`: the low byte is the pointer's (R114). -/
def pageCrossInd (s : State) (z : Byte) : Nat := pageCross (s.memRead .pointerLow (joinBytes 0x00 z)) s.y

/-- The cycles of a branch: 2 when it is not taken, 3 to the page of the next instruction, 4 to another (R271). -/
def branchCycles (taken : Bool) (s : State) (r : Byte) : Nat :=
  if taken then (if hiByte (branchTarget s r) = hiByte (s.pc + 2) then 3 else 4) else 2

/-- The cycles of the IRQ and NMI sequences (R230). -/
def interruptCycles : Nat := 7

/-- The cycles of the reset sequence: six and the two vector reads (R55, R260, log 18). -/
def resetCycles : Nat := 8

/-- The machine cycles N of an instruction at `PC` (R270, R271). -/
def cyclesOf (i : Instr) (s : State) : Nat :=
  match i with
  | .adcIndX _ => 6
  | .adcZp _ => 3
  | .adcImm _ => 2
  | .adcAbs _ => 4
  | .adcIndY z => 5 + pageCrossInd s z
  | .adcZpX _ => 4
  | .adcAbsY w => 4 + pageCross (loByte w) s.y
  | .adcAbsX w => 4 + pageCross (loByte w) s.x
  | .andIndX _ => 6
  | .andZp _ => 3
  | .andImm _ => 2
  | .andAbs _ => 4
  | .andIndY z => 5 + pageCrossInd s z
  | .andZpX _ => 4
  | .andAbsY w => 4 + pageCross (loByte w) s.y
  | .andAbsX w => 4 + pageCross (loByte w) s.x
  | .aslZp _ => 5
  | .aslAcc => 2
  | .aslAbs _ => 6
  | .aslZpX _ => 6
  | .aslAbsX _ => 7
  | .bcc r => branchCycles (!s.p.c) s r
  | .bcs r => branchCycles s.p.c s r
  | .beq r => branchCycles s.p.z s r
  | .bitZp _ => 3
  | .bitAbs _ => 4
  | .bmi r => branchCycles s.p.n s r
  | .bne r => branchCycles (!s.p.z) s r
  | .bpl r => branchCycles (!s.p.n) s r
  | .brk => 7
  | .bvc r => branchCycles (!s.p.v) s r
  | .bvs r => branchCycles s.p.v s r
  | .clc => 2
  | .cld => 2
  | .cli => 2
  | .clv => 2
  | .cmpIndX _ => 6
  | .cmpZp _ => 3
  | .cmpImm _ => 2
  | .cmpAbs _ => 4
  | .cmpIndY z => 5 + pageCrossInd s z
  | .cmpZpX _ => 4
  | .cmpAbsY w => 4 + pageCross (loByte w) s.y
  | .cmpAbsX w => 4 + pageCross (loByte w) s.x
  | .cpxImm _ => 2
  | .cpxZp _ => 3
  | .cpxAbs _ => 4
  | .cpyImm _ => 2
  | .cpyZp _ => 3
  | .cpyAbs _ => 4
  | .decZp _ => 5
  | .decAbs _ => 6
  | .decZpX _ => 6
  | .decAbsX _ => 7
  | .dex => 2
  | .dey => 2
  | .eorIndX _ => 6
  | .eorZp _ => 3
  | .eorImm _ => 2
  | .eorAbs _ => 4
  | .eorIndY z => 5 + pageCrossInd s z
  | .eorZpX _ => 4
  | .eorAbsY w => 4 + pageCross (loByte w) s.y
  | .eorAbsX w => 4 + pageCross (loByte w) s.x
  | .incZp _ => 5
  | .incAbs _ => 6
  | .incZpX _ => 6
  | .incAbsX _ => 7
  | .inx => 2
  | .iny => 2
  | .jmpAbs _ => 3
  | .jmpInd _ => 5
  | .jsr _ => 6
  | .ldaIndX _ => 6
  | .ldaZp _ => 3
  | .ldaImm _ => 2
  | .ldaAbs _ => 4
  | .ldaIndY z => 5 + pageCrossInd s z
  | .ldaZpX _ => 4
  | .ldaAbsY w => 4 + pageCross (loByte w) s.y
  | .ldaAbsX w => 4 + pageCross (loByte w) s.x
  | .ldxImm _ => 2
  | .ldxZp _ => 3
  | .ldxAbs _ => 4
  | .ldxZpY _ => 4
  | .ldxAbsY w => 4 + pageCross (loByte w) s.y
  | .ldyImm _ => 2
  | .ldyZp _ => 3
  | .ldyAbs _ => 4
  | .ldyZpX _ => 4
  | .ldyAbsX w => 4 + pageCross (loByte w) s.x
  | .lsrZp _ => 5
  | .lsrAcc => 2
  | .lsrAbs _ => 6
  | .lsrZpX _ => 6
  | .lsrAbsX _ => 7
  | .nop => 2
  | .oraIndX _ => 6
  | .oraZp _ => 3
  | .oraImm _ => 2
  | .oraAbs _ => 4
  | .oraIndY z => 5 + pageCrossInd s z
  | .oraZpX _ => 4
  | .oraAbsY w => 4 + pageCross (loByte w) s.y
  | .oraAbsX w => 4 + pageCross (loByte w) s.x
  | .pha => 3
  | .php => 3
  | .pla => 4
  | .plp => 4
  | .rolZp _ => 5
  | .rolAcc => 2
  | .rolAbs _ => 6
  | .rolZpX _ => 6
  | .rolAbsX _ => 7
  | .rorZp _ => 5
  | .rorAcc => 2
  | .rorAbs _ => 6
  | .rorZpX _ => 6
  | .rorAbsX _ => 7
  | .rti => 6
  | .rts => 6
  | .sbcIndX _ => 6
  | .sbcZp _ => 3
  | .sbcImm _ => 2
  | .sbcAbs _ => 4
  | .sbcIndY z => 5 + pageCrossInd s z
  | .sbcZpX _ => 4
  | .sbcAbsY w => 4 + pageCross (loByte w) s.y
  | .sbcAbsX w => 4 + pageCross (loByte w) s.x
  | .sec => 2
  | .sed => 2
  | .sei => 2
  | .staIndX _ => 6
  | .staZp _ => 3
  | .staAbs _ => 4
  | .staIndY _ => 6
  | .staZpX _ => 4
  | .staAbsY _ => 5
  | .staAbsX _ => 5
  | .stxZp _ => 3
  | .stxAbs _ => 4
  | .stxZpY _ => 4
  | .styZp _ => 3
  | .styAbs _ => 4
  | .styZpX _ => 4
  | .tax => 2
  | .tay => 2
  | .tsx => 2
  | .txa => 2
  | .txs => 2
  | .tya => 2

end Sys2Proof.Machine
end

