-- ==== Sys2Proof/Machine/Interrupts.lean ====
section
/-! DEFINITION. What a CPU step does first: the choice between the reset sequence, an interrupt sequence and an
instruction (60_exceptions.md R224 to R233), and the three sequences (R231, R232; 70_reset_and_hazards.md R260). -/

namespace Sys2Proof.Machine

/-- The parts a CPU step can choose from (00_scope.md R11). -/
inductive CpuAct where
  /-- RES is low, or RDY holds the CPU before its next op code fetch: nothing happens. -/
  | idle
  | resetSequence
  | nmiSequence
  | irqSequence
  | instruction
deriving DecidableEq, Repr

/-- An NMI is taken at this boundary (R232). Right after a sequence or BRK either may happen (R239, log 13). -/
def takesNmi (s : State) : Bool :=
  s.nmiPending &&
    (match s.boundary with
     | .afterSequence => Config.freeBit s.draws .nmiBeforeHandler
     | .afterMaskChange _ => true
     | .ordinary => true)

/-- An IRQ is taken at this boundary (R226): the stored `I` decides, but right after CLI, SEI or PLP changed it either
may happen (log 12). -/
def takesIrq (s : State) : Bool :=
  s.irqLine &&
    (match s.boundary with
     | .afterMaskChange oldI => if oldI = s.p.i then !s.p.i else Config.freeBit s.draws .irqAfterMaskChange
     | .afterSequence => !s.p.i
     | .ordinary => !s.p.i)

/-- The choice: RES over everything, then RDY holds the CPU, then NMI, then IRQ, then the instruction at `PC` (R225,
R233, R244, R261). -/
def chooseAct (s : State) : CpuAct :=
  if !s.res then .idle
  else if s.resetDue then .resetSequence
  else if !s.rdy then .idle
  else if takesNmi s then .nmiSequence
  else if takesIrq s then .irqSequence
  else .instruction

/-- The IRQ sequence (R231). -/
def irqSequence (s : State) : State :=
  { (interruptEntry irqVector false s).finish .afterSequence with cycles := s.cycles + interruptCycles }

/-- The NMI sequence (R232). -/
def nmiSequence (s : State) : State :=
  { (interruptEntry nmiVector false { s with nmiPending := false }).finish .afterSequence with
    cycles := s.cycles + interruptCycles }

/-- The reset sequence (R260). Every register and flag but `PC` and `I` is free afterwards (10_state.md R40, R41,
log 15). It writes no memory. -/
def resetSequence (s : State) : State :=
  { s with
    a := Config.freeByte s.draws .resetA
    x := Config.freeByte s.draws .resetX
    y := Config.freeByte s.draws .resetY
    sp := Config.freeByte s.draws .resetS
    pc := s.vectorAt resetVector
    p :=
      { n := Config.freeBit s.draws .resetN
        v := Config.freeBit s.draws .resetV
        d := Config.freeBit s.draws .resetD
        i := true
        z := Config.freeBit s.draws .resetZ
        c := Config.freeBit s.draws .resetC }
    nmiPending := false
    resetDue := false
    boundary := .ordinary
    draws := s.draws + 1
    cycles := s.cycles + resetCycles }

end Sys2Proof.Machine
end

