-- ==== Sys2Proof/Machine/Pins.lean ====
section
/-! DEFINITION. Environment steps (00_scope.md R11): pin levels and their edges (10_state.md R39; 60_exceptions.md R222,
R223, R227, R228, R229), DMA writes (20_memory.md R62), and the edges and DMA writes that fall inside a CPU step (20_memory.md R62; 60_exceptions.md
R227, R239; 70_reset_and_hazards.md R261). A pin the device lacks stays inactive (60_exceptions.md R245, log 28). -/

namespace Sys2Proof.Machine

/-- The IRQ level (R223, R229): a level is not latched. -/
def setIrq (requesting : Bool) (s : State) : State :=
  { s with irqLine := requesting && hasIrq s.platform.dev }

/-- The NMI level (R222, R228): a falling edge sets `nmi_pending`; edges while it is set are merged. -/
def setNmi (high : Bool) (s : State) : State :=
  if hasNmi s.platform.dev then
    { s with nmiLine := high, nmiPending := s.nmiPending || (s.nmiLine && !high) }
  else s

/-- The SO level (R227): a falling edge sets `P.V` and does nothing else. -/
def setSo (high : Bool) (s : State) : State :=
  if hasSo s.platform.dev then
    { s with soLine := high, p := { s.p with v := s.p.v || (s.soLine && !high) } }
  else s

/-- The RDY level (R39, R62). -/
def setRdy (high : Bool) (s : State) : State :=
  if hasRdy s.platform.dev then { s with rdy := high } else s

/-- The RES level (R221, R260, R261): a rising edge calls for the reset sequence. -/
def setRes (high : Bool) (s : State) : State :=
  { s with res := high, resetDue := s.resetDue || (!s.res && high) }

/-- A write by another bus master. It can happen only while the CPU is held by RDY (R62), or, by the platform, while
RES is low (R261); at any other time the bus is the CPU's and nothing happens. -/
def dmaWrite (a : Addr) (v : Byte) (s : State) : State :=
  if s.rdy && s.res then s else s.memWrite a v

/-- One environment step. -/
def envStep (e : EnvStep) (s : State) : State :=
  match e with
  | .setIrq requesting => setIrq requesting s
  | .setNmi high => setNmi high s
  | .setSo high => setSo high s
  | .setRdy high => setRdy high s
  | .setRes high => setRes high s
  | .dma a v => dmaWrite a v s

/-- The instructions that write `V` (R227): ADC, SBC, BIT, CLV, PLP, RTI. -/
def writesV (i : Instr) : Bool := [Mnemonic.adc, .sbc, .bit, .clv, .plp, .rti].contains i.mnemonic

/-- An SO edge inside a CPU step (R227): where the step writes `V` the two writes are in no stated order and `V` is
free afterwards (log 14), elsewhere `V` is 1. -/
def soInside (writes : Bool) (before after : State) : State :=
  if before.during.soFalls && hasSo before.platform.dev && before.soLine && writes then
    { after with soLine := false, p := { after.p with v := Config.freeBit before.draws .soAgainstWrite } }
  else if before.during.soFalls then setSo false after
  else after

/-- An NMI edge inside a CPU step is latched (R228), unless a redirected sequence has served it (R239). Inside the
reset sequence it moves the pin and leaves no request: the sequence clears `nmi_pending` at its end, and an edge before
that "has nothing to interrupt" (70_reset_and_hazards.md R260, decision D18, log 15). -/
def nmiInside (before after : State) : State :=
  if after.during.nmiFalls then
    if chooseAct before = .resetSequence then { setNmi false after with nmiPending := after.nmiPending }
    else setNmi false after
  else after

/-- RES falls inside a CPU step (R261): the step is cut off, and each location it could have written holds its old or
its new value, independently. Registers are free after the reset sequence that follows, so what they hold until then
is seen by nobody (log 16). The counter `cycles` holds what the whole step would have left: DESIGN CHOICE (log 18), the
spec counts no cycles for a step cut off. -/
def resInside (before after : State) : State :=
  if before.during.resFalls then
    setRes false
      (after.withMem (Memory.mix (fun l => Config.freeBit before.draws (.abandonedWrite l)) before.mem after.mem))
  else after

/-- Every role, in the order of the cycles. -/
def allSlots : List Slot :=
  [.opcode, .operand1, .operand2, .pointerLow, .pointerHigh, .data, .pull1, .pull2, .pull3, .write, .vectorLow,
    .vectorHigh]

/-- The DMA writes inside a step in the order of the cycles they come before; none where RDY cannot hold the CPU
(R62 e). -/
def dmaInOrder (dev : Device) (dma : List DmaWrite) : List DmaWrite :=
  if hasRdy dev then allSlots.flatMap (fun k => dma.filter (fun e => e.before == k)) else []

/-- One DMA write inside a step, made at its start, with a note of what it replaced. -/
def dmaInside (s : State) (e : DmaWrite) : State :=
  match s.kind e.a with
  | .ram => { s.memWrite e.a e.v with replaced := s.replaced ++ [⟨e.before, s.loc e.a, s.byteAt e.a⟩] }
  | .rom => s
  | .device => s
  | .unpopulated => s

/-- The state in which a CPU step works, with its edges `d` and DMA writes (20_memory.md R62 c, d): memory as the DMA
writes leave it, and a note of what they replaced, for the reads that come before them. -/
def beginStep (d : During) (dma : List DmaWrite) (s : State) : State :=
  (dmaInOrder s.platform.dev dma).foldl dmaInside { s with during := d, replaced := [] }

/-- The DMA writes that come after the step's own writes, made again over them (R62 d): a hold can fall before the two
vector reads. -/
def dmaAfterWrites (dma : List DmaWrite) (s : State) : State :=
  ((dmaInOrder s.platform.dev dma).filter (fun e => decide (slotRank Slot.write < slotRank e.before))).foldl
    (fun t e => t.memWrite e.a e.v) s

/-- The edges inside a CPU step from `before` to `after`, applied at its end. -/
def settle (writes : Bool) (before after : State) : State :=
  { resInside before (soInside writes before (nmiInside before after)) with during := During.none, replaced := [] }

end Sys2Proof.Machine
end

