-- ==== Sys2Proof/Machine/Cpu.lean ====
section
/-! DEFINITION. One CPU step (00_scope.md R11): an instruction, an interrupt sequence or the reset sequence, with the
edges and DMA writes that fall inside it. -/

namespace Sys2Proof.Machine

/-- An instruction executed at `PC`, and its machine cycles counted (70_reset_and_hazards.md R270). -/
def runInstr (i : Instr) (s : State) : Result :=
  match exec i s with
  | .next t => .next { t with cycles := s.cycles + cyclesOf i s }
  | .fault r => .fault r
  | .refused r => .refused r

/-- The instruction at `PC` fetched and executed; an undefined op code is refused (30_encoding.md R86). -/
def instructionStep (s : State) : Result :=
  match fetchInstr s with
  | .ok i => runInstr i s
  | .error op => .refused (.undefinedOpcode op)

/-- What the CPU does when it is its turn. -/
def act (s : State) : Result :=
  match chooseAct s with
  | .idle => .next s
  | .resetSequence => .next (resetSequence s)
  | .nmiSequence => .next (nmiSequence s)
  | .irqSequence => .next (irqSequence s)
  | .instruction => instructionStep s

/-- This CPU step writes `V`: an instruction that does, or the reset sequence, which leaves it open (R40, R227). -/
def actWritesV (s : State) : Bool :=
  match chooseAct s with
  | .idle => false
  | .resetSequence => true
  | .nmiSequence => false
  | .irqSequence => false
  | .instruction =>
    match fetchInstr s with
    | .ok i => writesV i
    | .error _ => false

/-- One CPU step, with the edges `d` and the DMA writes inside it. -/
def cpuStep (d : During) (dma : List DmaWrite) (s : State) : Result :=
  let before := beginStep d dma s
  match act before with
  | .next after => .next (settle (actWritesV before) before (dmaAfterWrites dma after))
  | .fault r => .fault r
  | .refused r => .refused r

/-- One turn: the environment's, or the CPU's. With no turn left to come the CPU moves. -/
def turn (s : State) : Result :=
  match s.schedule with
  | [] => cpuStep During.none [] s
  | .env e :: rest => .next (envStep e { s with schedule := rest })
  | .cpu d dma :: rest => cpuStep d dma { s with schedule := rest }

end Sys2Proof.Machine
end

