-- ==== Sys2Proof/Machine/Step.lean ====
section
/-! DEFINITION. The step of the machine, and an instruction placed where the next step fetches it. -/

namespace Sys2Proof.Machine

/-- One step: a turn of the environment or of the CPU (00_scope.md R11). -/
def step (s : State) : Host.Outcome State Fault Refusal := turn s

/-- The instruction whose `nbits` bits are `w`, its further bytes zero, stored at `PC`, where a CPU step fetches
(log 32). -/
def State.withFetchWord (s : State) (nbits w : Nat) : State := placeBytes (bytesOf 3 (w % 2 ^ nbits)) s.pc s

end Sys2Proof.Machine
end

