-- ==== Sys2Proof/Safety.lean ====
section
/-! DEFINITION. What counts as a good state and a good run, in the terms the statements use. -/

namespace Sys2Proof.Machine

/-- A pin the device lacks is inactive (10_state.md R39, 60_exceptions.md R245). -/
abbrev State.pinsInactive (s : State) : Prop :=
  (hasIrq s.platform.dev = false → s.irqLine = false) ∧
  (hasNmi s.platform.dev = false → s.nmiPending = false ∧ s.nmiLine = true) ∧
  (hasRdy s.platform.dev = false → s.rdy = true) ∧
  (hasSo s.platform.dev = false → s.soLine = true)

/-- Memory is in canonical form and every location it lists is one the device's address lines reach
(20_memory.md R51). -/
abbrev State.memoryOk (s : State) : Prop :=
  Memory.wf s.mem ∧ ∀ c ∈ s.mem, c.1 < 2 ^ addrBits s.platform.dev

/-- The invariant of the machine: memory is canonical and within the device's space, absent pins are inactive, and nothing
is left over from inside a CPU step. -/
abbrev State.Inv (s : State) : Prop := s.memoryOk ∧ s.pinsInactive ∧ s.during = During.none ∧ s.replaced = []

/-- The CPU is about to execute the instruction at `PC`, with no edge and no DMA write inside its step: no turn is waiting, RES and RDY
are high, no reset is due and no interrupt is recognised. -/
abbrev State.aboutToExecute (s : State) : Prop :=
  s.schedule = [] ∧ s.during = During.none ∧ s.replaced = [] ∧ chooseAct s = .instruction

/-- The parameter `EndCondition` (00_scope.md R12): the end of a run is the model's notion, a predicate on states. -/
abbrev EndCondition := State → Bool

/-- Memory answers at an address, so that its byte stays what it is until something writes it. -/
def State.steady (s : State) (a : Addr) : Bool :=
  match s.kind a with
  | .ram => true
  | .rom => true
  | .device => false
  | .unpopulated => false

/-- An IRQ can be taken at this boundary (60_exceptions.md R226). Right after CLI, SEI or PLP it can unless the old and
the new `I` both mask it. -/
def State.irqPossible (s : State) : Bool :=
  s.irqLine &&
    (match s.boundary with
     | .afterMaskChange oldI => !(oldI && s.p.i)
     | .afterSequence => !s.p.i
     | .ordinary => !s.p.i)

/-- The instructions that jump or branch and write nothing but `PC`. -/
def jumpMnemonics : List Mnemonic := [.jmp, .bcc, .bcs, .beq, .bmi, .bne, .bpl, .bvc, .bvs]

/-- What the instruction at `PC` reads stands in memory: its own bytes, and the pointer of JMP indirect (R113). -/
def State.readsMemoryOnly (s : State) (i : Instr) : Bool :=
  (List.range (fetchBytes s).length).all (fun k => s.steady (s.pc + BitVec.ofNat 16 k)) &&
    (match i with
     | .jmpInd w => s.steady w && s.steady (joinBytes (hiByte w) (loByte w + 1))
     | _ => true)

/-- An `EndCondition` the spec suggests (00_scope.md R12, decision D25): the instruction at `PC` jumps or branches to
itself, and nothing can change that. DESIGN CHOICE (log 34) of what "interrupts unable to occur" asks here: nothing is
scheduled, RES and RDY are high, no reset is due, no NMI is pending, no IRQ can be taken, and what the instruction
reads stands in memory. -/
def selfLoop : EndCondition := fun s =>
  s.schedule.isEmpty && s.res && s.rdy && !s.resetDue && !s.nmiPending && !s.irqPossible &&
    (match fetchInstr s with
     | .ok i =>
       jumpMnemonics.contains i.mnemonic && s.readsMemoryOnly i &&
         (match exec i s with
          | .next t => decide (t.pc = s.pc)
          | .fault _ => false
          | .refused _ => false)
     | .error _ => false)

end Sys2Proof.Machine
end

