-- ==== Sys2Proof/Certificates/Slice0/Obligations.lean ====
section
/-! DEFINITION. The statements for the provers. A statement about an instruction names the whole next state, so that it
says what the instruction changes, that it changes nothing else, and that it completes. The helpers in the namespace
Stmt say in plain arithmetic what the spec's rules say; the model's own flag computations are not used here. -/

namespace Sys2Proof.Stmt

open Machine

/-- N and Z of a byte, every other flag as before (10_state.md R37). -/
def nz (v : Byte) (p : Flags) : Flags := { p with n := decide (128 ≤ v.toNat), z := decide (v.toNat = 0) }

/-- The state after an instruction of `n` bytes that changes nothing else: `PC` stepped modulo 2^16 (10_state.md R25,
R26), the model's draw counter and boundary mark moved on. -/
def passed (n : Nat) (s : State) : State :=
  { s with pc := BitVec.ofNat 16 (s.pc.toNat + n), boundary := .ordinary, draws := s.draws + 1 }

/-- The state after an instruction that sets `PC` and changes nothing else. -/
def jumped (target : Addr) (s : State) : State := { s with pc := target, boundary := .ordinary, draws := s.draws + 1 }

/-- `$0100 + S`, an address of page one (10_state.md R22). -/
def page1 (sp : Byte) : Addr := BitVec.ofNat 16 (256 + sp.toNat)

/-- The byte image of `P` with break bit `b` (10_state.md R35). -/
def pByte (p : Flags) (b : Bool) : Byte :=
  BitVec.ofNat 8 ((if p.n then 128 else 0) + (if p.v then 64 else 0) + 32 + (if b then 16 else 0) +
    (if p.d then 8 else 0) + (if p.i then 4 else 0) + (if p.z then 2 else 0) + (if p.c then 1 else 0))

/-- The flags a pulled byte loads (10_state.md R36). -/
def pulledFlags (v : Byte) : Flags where
  n := decide (v.toNat / 128 % 2 = 1)
  v := decide (v.toNat / 64 % 2 = 1)
  d := decide (v.toNat / 8 % 2 = 1)
  i := decide (v.toNat / 4 % 2 = 1)
  z := decide (v.toNat / 2 % 2 = 1)
  c := decide (v.toNat % 2 = 1)

/-- The bytes of memory from `s` to `t`: at each address of the list the byte given, where RAM answers there, and what
stood there where it does not; at every address that reaches none of their locations what stood there. That two
locations are two cells is the model's choice (log 37). -/
def StoresOnly (s t : State) (stored : List (Addr × Byte)) : Prop :=
  (∀ b : Addr, (∀ e ∈ stored, s.loc b ≠ s.loc e.1) → t.byteAt b = s.byteAt b) ∧
  (∀ e ∈ stored, s.kind e.1 = .ram → t.byteAt e.1 = e.2) ∧
  (∀ e ∈ stored, s.kind e.1 ≠ .ram → t.byteAt e.1 = s.byteAt e.1)

/-- An instruction of `n` bytes stores `v` at `ea`, and changes nothing else but the flags, which become `p`. -/
def Stores (n : Nat) (ea : Addr) (v : Byte) (p : Flags) (s t : State) : Prop :=
  t = { passed n s with mem := t.mem, p := p } ∧ StoresOnly s t [(ea, v)]

/-- The signed value of a byte plus another plus a carry lies outside −128..127 (42_arithmetic_logic.md R149). -/
def signedOverflow (total : Int) : Bool := decide (total < -128 ∨ 127 < total)

/-- A byte is valid packed BCD, and its value (42_arithmetic_logic.md R150). -/
def bcd (v : Byte) : Option Nat :=
  if v.toNat / 16 ≤ 9 ∧ v.toNat % 16 ≤ 9 then some (10 * (v.toNat / 16) + v.toNat % 16) else none

/-- What ADC with operand `m` does (R140, R150): the binary sum with D clear; with D set the decimal sum and carry of
valid operands, N, V and Z (and A and C of invalid operands) being any values; D, I and everything else unchanged. -/
def Adds (n : Nat) (m : Byte) (s t : State) : Prop :=
  (s.p.d = false →
    t = { passed n s with
          a := BitVec.ofNat 8 (s.a.toNat + m.toNat + s.p.c.toNat)
          p := { nz (BitVec.ofNat 8 (s.a.toNat + m.toNat + s.p.c.toNat)) s.p with
                 c := decide (256 ≤ s.a.toNat + m.toNat + s.p.c.toNat)
                 v := signedOverflow (s.a.toInt + m.toInt + s.p.c.toNat) } }) ∧
  (s.p.d = true →
    t = { passed n s with
          a := t.a, p := { s.p with n := t.p.n, v := t.p.v, z := t.p.z, c := t.p.c } } ∧
    (∀ a b : Nat, bcd s.a = some a → bcd m = some b →
      bcd t.a = some ((a + b + s.p.c.toNat) % 100) ∧ (t.p.c = true ↔ 100 ≤ a + b + s.p.c.toNat)))

/-- What SBC with operand `m` does (R141, R151); the borrow in is the complement of the carry. -/
def Subtracts (n : Nat) (m : Byte) (s t : State) : Prop :=
  (s.p.d = false →
    t = { passed n s with
          a := BitVec.ofInt 8 ((s.a.toNat : Int) - m.toNat - (1 - s.p.c.toNat))
          p := { nz (BitVec.ofInt 8 ((s.a.toNat : Int) - m.toNat - (1 - s.p.c.toNat))) s.p with
                 c := decide (m.toNat + (1 - s.p.c.toNat) ≤ s.a.toNat)
                 v := signedOverflow (s.a.toInt - m.toInt - (1 - s.p.c.toNat)) } }) ∧
  (s.p.d = true →
    t = { passed n s with
          a := t.a, p := { s.p with n := t.p.n, v := t.p.v, z := t.p.z, c := t.p.c } } ∧
    (∀ a b : Nat, bcd s.a = some a → bcd m = some b →
      bcd t.a = some ((((a : Int) - b - (1 - s.p.c.toNat)) % 100).toNat) ∧
      (t.p.c = true ↔ (0 : Int) ≤ (a : Int) - b - (1 - s.p.c.toNat))))

/-- The state after a compare of a register with `m` (R145 to R147): C is register ≥ operand, Z register = operand, N
bit 7 of the wrapped difference; V and everything else unchanged. -/
def compared (n : Nat) (reg m : Byte) (s : State) : State :=
  { passed n s with
    p := { s.p with
           n := decide (128 ≤ (reg.toNat + 256 - m.toNat) % 256)
           z := decide (reg = m)
           c := decide (m.toNat ≤ reg.toNat) } }

/-- The shifts and rotates of a byte in plain arithmetic, with the bit that leaves (R160 to R163). -/
def asl (v : Byte) : Byte × Bool := (BitVec.ofNat 8 (v.toNat * 2), decide (128 ≤ v.toNat))
def lsr (v : Byte) : Byte × Bool := (BitVec.ofNat 8 (v.toNat / 2), decide (v.toNat % 2 = 1))
def rol (c : Bool) (v : Byte) : Byte × Bool := (BitVec.ofNat 8 (v.toNat * 2 + c.toNat), decide (128 ≤ v.toNat))
def ror (c : Bool) (v : Byte) : Byte × Bool := (BitVec.ofNat 8 (v.toNat / 2 + c.toNat * 128), decide (v.toNat % 2 = 1))

/-- The state after a shift of the accumulator. -/
def shiftedA (r : Byte × Bool) (s : State) : State := { passed 1 s with a := r.1, p := { nz r.1 s.p with c := r.2 } }

/-- The state after a branch (R180): to the address of the next instruction plus the signed offset, modulo 2^16, when
the condition holds, and to the next instruction when it does not. -/
def branched (cond : Bool) (r : Byte) (s : State) : State :=
  jumped (if cond then BitVec.ofInt 16 ((s.pc.toNat : Int) + 2 + r.toInt) else BitVec.ofNat 16 (s.pc.toNat + 2)) s

/-- What taking an interrupt leaves (60_exceptions.md R230), with the return address `ret` and break bit `b`: the frame
of three bytes, `S` three less, I set, `PC` from the vector, every other register and flag unchanged. -/
def Enters (vector ret : Addr) (b : Bool) (s t : State) : Prop :=
  t.a = s.a ∧ t.x = s.x ∧ t.y = s.y ∧ t.sp = s.sp - 3 ∧ t.p = { s.p with i := true } ∧
  t.pc = joinBytes (s.memRead .vectorHigh (vector + 1)) (s.memRead .vectorLow vector) ∧
  StoresOnly s t
    [(page1 s.sp, hiByte ret), (page1 (s.sp - 1), loByte ret), (page1 (s.sp - 2), pByte s.p b)]

/-- The pins, the platform, the turns to come and the notes of DMA writes inside the step are as they were. -/
def SamePins (s t : State) : Prop :=
  t.irqLine = s.irqLine ∧ t.rdy = s.rdy ∧ t.res = s.res ∧ t.soLine = s.soLine ∧
  t.resetDue = s.resetDue ∧ t.platform = s.platform ∧ t.schedule = s.schedule ∧ t.replaced = s.replaced

/-- The CPU moves alone: no turn is waiting, and no edge and no DMA write is left from inside a step. -/
def Alone (s : State) : Prop := s.schedule = [] ∧ s.during = During.none ∧ s.replaced = []

/-- The CPU is at a boundary at which an interrupt may be recognised: RES and RDY are high, no reset is due. -/
def AtBoundary (s : State) : Prop := Alone s ∧ s.res = true ∧ s.rdy = true ∧ s.resetDue = false

/-- RAM answers at the next `n` bytes a push would write, and no DMA write falls inside the step. -/
def StackRam (n : Nat) (s : State) : Prop := s.replaced = [] ∧ ∀ k < n, s.kind (page1 (s.sp - BitVec.ofNat 8 k)) = .ram

end Sys2Proof.Stmt

open Sys2Proof Sys2Proof.Machine Sys2Proof.Stmt

/-- LDA loads A and sets N and Z, in all eight modes (R120). -/
def Obligations.LdaLoadsAccumulator : Prop :=
  ∀ (s : State) (m z : Byte) (w : Addr),
    exec (.ldaImm m) s = .next { passed 2 s with a := m, p := nz m s.p } ∧
    exec (.ldaZp z) s = .next { passed 2 s with a := (s.memRead .data (eaZp z)), p := nz (s.memRead .data (eaZp z)) s.p } ∧
    exec (.ldaZpX z) s = .next { passed 2 s with a := (s.memRead .data (eaZpX s z)), p := nz (s.memRead .data (eaZpX s z)) s.p } ∧
    exec (.ldaAbs w) s = .next { passed 3 s with a := (s.memRead .data (eaAbs w)), p := nz (s.memRead .data (eaAbs w)) s.p } ∧
    exec (.ldaAbsX w) s = .next { passed 3 s with a := (s.memRead .data (eaAbsX s w)), p := nz (s.memRead .data (eaAbsX s w)) s.p } ∧
    exec (.ldaAbsY w) s = .next { passed 3 s with a := (s.memRead .data (eaAbsY s w)), p := nz (s.memRead .data (eaAbsY s w)) s.p } ∧
    exec (.ldaIndX z) s = .next { passed 2 s with a := (s.memRead .data (eaIndX s z)), p := nz (s.memRead .data (eaIndX s z)) s.p } ∧
    exec (.ldaIndY z) s = .next { passed 2 s with a := (s.memRead .data (eaIndY s z)), p := nz (s.memRead .data (eaIndY s z)) s.p } ∧
    encode (.ldaImm m) = [0xA9, m] ∧
    encode (.ldaZp z) = [0xA5, z] ∧
    encode (.ldaZpX z) = [0xB5, z] ∧
    encode (.ldaAbs w) = [0xAD, loByte w, hiByte w] ∧
    encode (.ldaAbsX w) = [0xBD, loByte w, hiByte w] ∧
    encode (.ldaAbsY w) = [0xB9, loByte w, hiByte w] ∧
    encode (.ldaIndX z) = [0xA1, z] ∧
    encode (.ldaIndY z) = [0xB1, z]

/-- LDX loads X and LDY loads Y, with N and Z, in all five modes each (R121, R122). -/
def Obligations.LdxLdyLoadIndexes : Prop :=
  ∀ (s : State) (m z : Byte) (w : Addr),
    exec (.ldxImm m) s = .next { passed 2 s with x := m, p := nz m s.p } ∧
    exec (.ldxZp z) s = .next { passed 2 s with x := (s.memRead .data (eaZp z)), p := nz (s.memRead .data (eaZp z)) s.p } ∧
    exec (.ldxZpY z) s = .next { passed 2 s with x := (s.memRead .data (eaZpY s z)), p := nz (s.memRead .data (eaZpY s z)) s.p } ∧
    exec (.ldxAbs w) s = .next { passed 3 s with x := (s.memRead .data (eaAbs w)), p := nz (s.memRead .data (eaAbs w)) s.p } ∧
    exec (.ldxAbsY w) s = .next { passed 3 s with x := (s.memRead .data (eaAbsY s w)), p := nz (s.memRead .data (eaAbsY s w)) s.p } ∧
    exec (.ldyImm m) s = .next { passed 2 s with y := m, p := nz m s.p } ∧
    exec (.ldyZp z) s = .next { passed 2 s with y := (s.memRead .data (eaZp z)), p := nz (s.memRead .data (eaZp z)) s.p } ∧
    exec (.ldyZpX z) s = .next { passed 2 s with y := (s.memRead .data (eaZpX s z)), p := nz (s.memRead .data (eaZpX s z)) s.p } ∧
    exec (.ldyAbs w) s = .next { passed 3 s with y := (s.memRead .data (eaAbs w)), p := nz (s.memRead .data (eaAbs w)) s.p } ∧
    exec (.ldyAbsX w) s = .next { passed 3 s with y := (s.memRead .data (eaAbsX s w)), p := nz (s.memRead .data (eaAbsX s w)) s.p } ∧
    encode (.ldxImm m) = [0xA2, m] ∧
    encode (.ldxZp z) = [0xA6, z] ∧
    encode (.ldxZpY z) = [0xB6, z] ∧
    encode (.ldxAbs w) = [0xAE, loByte w, hiByte w] ∧
    encode (.ldxAbsY w) = [0xBE, loByte w, hiByte w] ∧
    encode (.ldyImm m) = [0xA0, m] ∧
    encode (.ldyZp z) = [0xA4, z] ∧
    encode (.ldyZpX z) = [0xB4, z] ∧
    encode (.ldyAbs w) = [0xAC, loByte w, hiByte w] ∧
    encode (.ldyAbsX w) = [0xBC, loByte w, hiByte w]

/-- STA stores A at the effective address and changes nothing else, in all seven modes (R123). -/
def Obligations.StaStoresAccumulator : Prop :=
  ∀ (s : State) (z : Byte) (w : Addr),
    (∃ t, exec (.staZp z) s = .next t ∧ Stores 2 (eaZp z) s.a s.p s t) ∧
    (∃ t, exec (.staZpX z) s = .next t ∧ Stores 2 (eaZpX s z) s.a s.p s t) ∧
    (∃ t, exec (.staAbs w) s = .next t ∧ Stores 3 (eaAbs w) s.a s.p s t) ∧
    (∃ t, exec (.staAbsX w) s = .next t ∧ Stores 3 (eaAbsX s w) s.a s.p s t) ∧
    (∃ t, exec (.staAbsY w) s = .next t ∧ Stores 3 (eaAbsY s w) s.a s.p s t) ∧
    (∃ t, exec (.staIndX z) s = .next t ∧ Stores 2 (eaIndX s z) s.a s.p s t) ∧
    (∃ t, exec (.staIndY z) s = .next t ∧ Stores 2 (eaIndY s z) s.a s.p s t) ∧
    encode (.staZp z) = [0x85, z] ∧
    encode (.staZpX z) = [0x95, z] ∧
    encode (.staAbs w) = [0x8D, loByte w, hiByte w] ∧
    encode (.staAbsX w) = [0x9D, loByte w, hiByte w] ∧
    encode (.staAbsY w) = [0x99, loByte w, hiByte w] ∧
    encode (.staIndX z) = [0x81, z] ∧
    encode (.staIndY z) = [0x91, z]

/-- STX stores X and STY stores Y and they change nothing else (R124, R125). -/
def Obligations.StxStyStoreIndexes : Prop :=
  ∀ (s : State) (z : Byte) (w : Addr),
    (∃ t, exec (.stxZp z) s = .next t ∧ Stores 2 (eaZp z) s.x s.p s t) ∧
    (∃ t, exec (.stxZpY z) s = .next t ∧ Stores 2 (eaZpY s z) s.x s.p s t) ∧
    (∃ t, exec (.stxAbs w) s = .next t ∧ Stores 3 (eaAbs w) s.x s.p s t) ∧
    (∃ t, exec (.styZp z) s = .next t ∧ Stores 2 (eaZp z) s.y s.p s t) ∧
    (∃ t, exec (.styZpX z) s = .next t ∧ Stores 2 (eaZpX s z) s.y s.p s t) ∧
    (∃ t, exec (.styAbs w) s = .next t ∧ Stores 3 (eaAbs w) s.y s.p s t) ∧
    encode (.stxZp z) = [0x86, z] ∧
    encode (.stxZpY z) = [0x96, z] ∧
    encode (.stxAbs w) = [0x8E, loByte w, hiByte w] ∧
    encode (.styZp z) = [0x84, z] ∧
    encode (.styZpX z) = [0x94, z] ∧
    encode (.styAbs w) = [0x8C, loByte w, hiByte w]

/-- The six register transfers; TXS alone writes no flag (R126, R127, R128, R129, R130, R131). -/
def Obligations.TransfersMoveRegisters : Prop :=
  ∀ (s : State),
    exec .tax s = .next { passed 1 s with x := s.a, p := nz s.a s.p } ∧
    exec .tay s = .next { passed 1 s with y := s.a, p := nz s.a s.p } ∧
    exec .txa s = .next { passed 1 s with a := s.x, p := nz s.x s.p } ∧
    exec .tya s = .next { passed 1 s with a := s.y, p := nz s.y s.p } ∧
    exec .tsx s = .next { passed 1 s with x := s.sp, p := nz s.sp s.p } ∧
    exec .txs s = .next { passed 1 s with sp := s.x } ∧
    encode .tax = [0xAA] ∧
    encode .tay = [0xA8] ∧
    encode .txa = [0x8A] ∧
    encode .tya = [0x98] ∧
    encode .tsx = [0xBA] ∧
    encode .txs = [0x9A]

/-- ADC adds with carry, binary and decimal, in all eight modes (R140, R150). -/
def Obligations.AdcAdds : Prop :=
  ∀ (s : State) (m z : Byte) (w : Addr),
    (∃ t, exec (.adcImm m) s = .next t ∧ Adds 2 m s t) ∧
    (∃ t, exec (.adcZp z) s = .next t ∧ Adds 2 (s.memRead .data (eaZp z)) s t) ∧
    (∃ t, exec (.adcZpX z) s = .next t ∧ Adds 2 (s.memRead .data (eaZpX s z)) s t) ∧
    (∃ t, exec (.adcAbs w) s = .next t ∧ Adds 3 (s.memRead .data (eaAbs w)) s t) ∧
    (∃ t, exec (.adcAbsX w) s = .next t ∧ Adds 3 (s.memRead .data (eaAbsX s w)) s t) ∧
    (∃ t, exec (.adcAbsY w) s = .next t ∧ Adds 3 (s.memRead .data (eaAbsY s w)) s t) ∧
    (∃ t, exec (.adcIndX z) s = .next t ∧ Adds 2 (s.memRead .data (eaIndX s z)) s t) ∧
    (∃ t, exec (.adcIndY z) s = .next t ∧ Adds 2 (s.memRead .data (eaIndY s z)) s t) ∧
    encode (.adcImm m) = [0x69, m] ∧
    encode (.adcZp z) = [0x65, z] ∧
    encode (.adcZpX z) = [0x75, z] ∧
    encode (.adcAbs w) = [0x6D, loByte w, hiByte w] ∧
    encode (.adcAbsX w) = [0x7D, loByte w, hiByte w] ∧
    encode (.adcAbsY w) = [0x79, loByte w, hiByte w] ∧
    encode (.adcIndX z) = [0x61, z] ∧
    encode (.adcIndY z) = [0x71, z]

/-- SBC subtracts with borrow, binary and decimal, in all eight modes (R141, R151). -/
def Obligations.SbcSubtracts : Prop :=
  ∀ (s : State) (m z : Byte) (w : Addr),
    (∃ t, exec (.sbcImm m) s = .next t ∧ Subtracts 2 m s t) ∧
    (∃ t, exec (.sbcZp z) s = .next t ∧ Subtracts 2 (s.memRead .data (eaZp z)) s t) ∧
    (∃ t, exec (.sbcZpX z) s = .next t ∧ Subtracts 2 (s.memRead .data (eaZpX s z)) s t) ∧
    (∃ t, exec (.sbcAbs w) s = .next t ∧ Subtracts 3 (s.memRead .data (eaAbs w)) s t) ∧
    (∃ t, exec (.sbcAbsX w) s = .next t ∧ Subtracts 3 (s.memRead .data (eaAbsX s w)) s t) ∧
    (∃ t, exec (.sbcAbsY w) s = .next t ∧ Subtracts 3 (s.memRead .data (eaAbsY s w)) s t) ∧
    (∃ t, exec (.sbcIndX z) s = .next t ∧ Subtracts 2 (s.memRead .data (eaIndX s z)) s t) ∧
    (∃ t, exec (.sbcIndY z) s = .next t ∧ Subtracts 2 (s.memRead .data (eaIndY s z)) s t) ∧
    encode (.sbcImm m) = [0xE9, m] ∧
    encode (.sbcZp z) = [0xE5, z] ∧
    encode (.sbcZpX z) = [0xF5, z] ∧
    encode (.sbcAbs w) = [0xED, loByte w, hiByte w] ∧
    encode (.sbcAbsX w) = [0xFD, loByte w, hiByte w] ∧
    encode (.sbcAbsY w) = [0xF9, loByte w, hiByte w] ∧
    encode (.sbcIndX z) = [0xE1, z] ∧
    encode (.sbcIndY z) = [0xF1, z]

/-- The 8-bit addition of ADC, SBC and the compares (R149). -/
def Obligations.AddBinaryIsExactSum : Prop :=
  ∀ (a m : Byte) (c : Bool),
    (addBinary a m c).r.toNat = (a.toNat + m.toNat + c.toNat) % 256 ∧
    ((addBinary a m c).cout = true ↔ 256 ≤ a.toNat + m.toNat + c.toNat) ∧
    ((addBinary a m c).vout = true ↔
      (a.toInt + m.toInt + (c.toNat : Int) < -128 ∨ 127 < a.toInt + m.toInt + (c.toNat : Int))) ∧
    ((addBinary a m c).vout = true ↔ a.msb = m.msb ∧ (addBinary a m c).r.msb ≠ a.msb)

/-- AND, ORA, EOR: the bitwise and, or, exclusive or of A and the operand, in all eight modes (R142, R143, R144). -/
def Obligations.LogicCombinesAccumulator : Prop :=
  ∀ (s : State) (m z : Byte) (w : Addr),
    exec (.andImm m) s = .next { passed 2 s with a := s.a &&& m, p := nz (s.a &&& m) s.p } ∧
    exec (.andZp z) s = .next { passed 2 s with a := s.a &&& (s.memRead .data (eaZp z)), p := nz (s.a &&& (s.memRead .data (eaZp z))) s.p } ∧
    exec (.andZpX z) s = .next { passed 2 s with a := s.a &&& (s.memRead .data (eaZpX s z)), p := nz (s.a &&& (s.memRead .data (eaZpX s z))) s.p } ∧
    exec (.andAbs w) s = .next { passed 3 s with a := s.a &&& (s.memRead .data (eaAbs w)), p := nz (s.a &&& (s.memRead .data (eaAbs w))) s.p } ∧
    exec (.andAbsX w) s = .next { passed 3 s with a := s.a &&& (s.memRead .data (eaAbsX s w)), p := nz (s.a &&& (s.memRead .data (eaAbsX s w))) s.p } ∧
    exec (.andAbsY w) s = .next { passed 3 s with a := s.a &&& (s.memRead .data (eaAbsY s w)), p := nz (s.a &&& (s.memRead .data (eaAbsY s w))) s.p } ∧
    exec (.andIndX z) s = .next { passed 2 s with a := s.a &&& (s.memRead .data (eaIndX s z)), p := nz (s.a &&& (s.memRead .data (eaIndX s z))) s.p } ∧
    exec (.andIndY z) s = .next { passed 2 s with a := s.a &&& (s.memRead .data (eaIndY s z)), p := nz (s.a &&& (s.memRead .data (eaIndY s z))) s.p } ∧
    exec (.oraImm m) s = .next { passed 2 s with a := s.a ||| m, p := nz (s.a ||| m) s.p } ∧
    exec (.oraZp z) s = .next { passed 2 s with a := s.a ||| (s.memRead .data (eaZp z)), p := nz (s.a ||| (s.memRead .data (eaZp z))) s.p } ∧
    exec (.oraZpX z) s = .next { passed 2 s with a := s.a ||| (s.memRead .data (eaZpX s z)), p := nz (s.a ||| (s.memRead .data (eaZpX s z))) s.p } ∧
    exec (.oraAbs w) s = .next { passed 3 s with a := s.a ||| (s.memRead .data (eaAbs w)), p := nz (s.a ||| (s.memRead .data (eaAbs w))) s.p } ∧
    exec (.oraAbsX w) s = .next { passed 3 s with a := s.a ||| (s.memRead .data (eaAbsX s w)), p := nz (s.a ||| (s.memRead .data (eaAbsX s w))) s.p } ∧
    exec (.oraAbsY w) s = .next { passed 3 s with a := s.a ||| (s.memRead .data (eaAbsY s w)), p := nz (s.a ||| (s.memRead .data (eaAbsY s w))) s.p } ∧
    exec (.oraIndX z) s = .next { passed 2 s with a := s.a ||| (s.memRead .data (eaIndX s z)), p := nz (s.a ||| (s.memRead .data (eaIndX s z))) s.p } ∧
    exec (.oraIndY z) s = .next { passed 2 s with a := s.a ||| (s.memRead .data (eaIndY s z)), p := nz (s.a ||| (s.memRead .data (eaIndY s z))) s.p } ∧
    exec (.eorImm m) s = .next { passed 2 s with a := s.a ^^^ m, p := nz (s.a ^^^ m) s.p } ∧
    exec (.eorZp z) s = .next { passed 2 s with a := s.a ^^^ (s.memRead .data (eaZp z)), p := nz (s.a ^^^ (s.memRead .data (eaZp z))) s.p } ∧
    exec (.eorZpX z) s = .next { passed 2 s with a := s.a ^^^ (s.memRead .data (eaZpX s z)), p := nz (s.a ^^^ (s.memRead .data (eaZpX s z))) s.p } ∧
    exec (.eorAbs w) s = .next { passed 3 s with a := s.a ^^^ (s.memRead .data (eaAbs w)), p := nz (s.a ^^^ (s.memRead .data (eaAbs w))) s.p } ∧
    exec (.eorAbsX w) s = .next { passed 3 s with a := s.a ^^^ (s.memRead .data (eaAbsX s w)), p := nz (s.a ^^^ (s.memRead .data (eaAbsX s w))) s.p } ∧
    exec (.eorAbsY w) s = .next { passed 3 s with a := s.a ^^^ (s.memRead .data (eaAbsY s w)), p := nz (s.a ^^^ (s.memRead .data (eaAbsY s w))) s.p } ∧
    exec (.eorIndX z) s = .next { passed 2 s with a := s.a ^^^ (s.memRead .data (eaIndX s z)), p := nz (s.a ^^^ (s.memRead .data (eaIndX s z))) s.p } ∧
    exec (.eorIndY z) s = .next { passed 2 s with a := s.a ^^^ (s.memRead .data (eaIndY s z)), p := nz (s.a ^^^ (s.memRead .data (eaIndY s z))) s.p } ∧
    encode (.andImm m) = [0x29, m] ∧
    encode (.andZp z) = [0x25, z] ∧
    encode (.andZpX z) = [0x35, z] ∧
    encode (.andAbs w) = [0x2D, loByte w, hiByte w] ∧
    encode (.andAbsX w) = [0x3D, loByte w, hiByte w] ∧
    encode (.andAbsY w) = [0x39, loByte w, hiByte w] ∧
    encode (.andIndX z) = [0x21, z] ∧
    encode (.andIndY z) = [0x31, z] ∧
    encode (.oraImm m) = [0x09, m] ∧
    encode (.oraZp z) = [0x05, z] ∧
    encode (.oraZpX z) = [0x15, z] ∧
    encode (.oraAbs w) = [0x0D, loByte w, hiByte w] ∧
    encode (.oraAbsX w) = [0x1D, loByte w, hiByte w] ∧
    encode (.oraAbsY w) = [0x19, loByte w, hiByte w] ∧
    encode (.oraIndX z) = [0x01, z] ∧
    encode (.oraIndY z) = [0x11, z] ∧
    encode (.eorImm m) = [0x49, m] ∧
    encode (.eorZp z) = [0x45, z] ∧
    encode (.eorZpX z) = [0x55, z] ∧
    encode (.eorAbs w) = [0x4D, loByte w, hiByte w] ∧
    encode (.eorAbsX w) = [0x5D, loByte w, hiByte w] ∧
    encode (.eorAbsY w) = [0x59, loByte w, hiByte w] ∧
    encode (.eorIndX z) = [0x41, z] ∧
    encode (.eorIndY z) = [0x51, z]

/-- CMP: C is A ≥ M, Z is A = M, N is bit 7 of the difference, V unchanged (R145). -/
def Obligations.CmpComparesAccumulator : Prop :=
  ∀ (s : State) (m z : Byte) (w : Addr),
    exec (.cmpImm m) s = .next (compared 2 s.a m s) ∧
    exec (.cmpZp z) s = .next (compared 2 s.a (s.memRead .data (eaZp z)) s) ∧
    exec (.cmpZpX z) s = .next (compared 2 s.a (s.memRead .data (eaZpX s z)) s) ∧
    exec (.cmpAbs w) s = .next (compared 3 s.a (s.memRead .data (eaAbs w)) s) ∧
    exec (.cmpAbsX w) s = .next (compared 3 s.a (s.memRead .data (eaAbsX s w)) s) ∧
    exec (.cmpAbsY w) s = .next (compared 3 s.a (s.memRead .data (eaAbsY s w)) s) ∧
    exec (.cmpIndX z) s = .next (compared 2 s.a (s.memRead .data (eaIndX s z)) s) ∧
    exec (.cmpIndY z) s = .next (compared 2 s.a (s.memRead .data (eaIndY s z)) s) ∧
    encode (.cmpImm m) = [0xC9, m] ∧
    encode (.cmpZp z) = [0xC5, z] ∧
    encode (.cmpZpX z) = [0xD5, z] ∧
    encode (.cmpAbs w) = [0xCD, loByte w, hiByte w] ∧
    encode (.cmpAbsX w) = [0xDD, loByte w, hiByte w] ∧
    encode (.cmpAbsY w) = [0xD9, loByte w, hiByte w] ∧
    encode (.cmpIndX z) = [0xC1, z] ∧
    encode (.cmpIndY z) = [0xD1, z]

/-- CPX and CPY: the flags of the index register less the operand (R146, R147). -/
def Obligations.CpxCpyCompareIndexes : Prop :=
  ∀ (s : State) (m z : Byte) (w : Addr),
    exec (.cpxImm m) s = .next (compared 2 s.x m s) ∧
    exec (.cpxZp z) s = .next (compared 2 s.x (s.memRead .data (eaZp z)) s) ∧
    exec (.cpxAbs w) s = .next (compared 3 s.x (s.memRead .data (eaAbs w)) s) ∧
    exec (.cpyImm m) s = .next (compared 2 s.y m s) ∧
    exec (.cpyZp z) s = .next (compared 2 s.y (s.memRead .data (eaZp z)) s) ∧
    exec (.cpyAbs w) s = .next (compared 3 s.y (s.memRead .data (eaAbs w)) s) ∧
    encode (.cpxImm m) = [0xE0, m] ∧
    encode (.cpxZp z) = [0xE4, z] ∧
    encode (.cpxAbs w) = [0xEC, loByte w, hiByte w] ∧
    encode (.cpyImm m) = [0xC0, m] ∧
    encode (.cpyZp z) = [0xC4, z] ∧
    encode (.cpyAbs w) = [0xCC, loByte w, hiByte w]

/-- BIT: Z from A and M, N and V copied from the memory operand (R148). -/
def Obligations.BitTestsMemory : Prop :=
  ∀ (s : State) (z : Byte) (w : Addr),
    exec (.bitZp z) s = .next
      { passed 2 s with
        p := { s.p with
               z := decide (∀ k : Fin 8, (s.a.getLsbD k && (s.memRead .data (eaZp z)).getLsbD k) = false)
               n := decide (128 ≤ (s.memRead .data (eaZp z)).toNat)
               v := decide (64 ≤ (s.memRead .data (eaZp z)).toNat % 128) } } ∧
    exec (.bitAbs w) s = .next
      { passed 3 s with
        p := { s.p with
               z := decide (∀ k : Fin 8, (s.a.getLsbD k && (s.memRead .data (eaAbs w)).getLsbD k) = false)
               n := decide (128 ≤ (s.memRead .data (eaAbs w)).toNat)
               v := decide (64 ≤ (s.memRead .data (eaAbs w)).toNat % 128) } } ∧
    encode (.bitZp z) = [0x24, z] ∧
    encode (.bitAbs w) = [0x2C, loByte w, hiByte w]

/-- ASL and LSR shift a 0 in and the bit that leaves goes to C, on A and on memory (R160, R161). -/
def Obligations.ShiftsMoveBitIntoCarry : Prop :=
  ∀ (s : State) (z : Byte) (w : Addr),
    exec .aslAcc s = .next (shiftedA (asl s.a) s) ∧
    (∃ t, exec (.aslZp z) s = .next t ∧
      Stores 2 (eaZp z) (asl (s.memRead .data (eaZp z))).1 { nz (asl (s.memRead .data (eaZp z))).1 s.p with c := (asl (s.memRead .data (eaZp z))).2 } s t) ∧
    (∃ t, exec (.aslZpX z) s = .next t ∧
      Stores 2 (eaZpX s z) (asl (s.memRead .data (eaZpX s z))).1 { nz (asl (s.memRead .data (eaZpX s z))).1 s.p with c := (asl (s.memRead .data (eaZpX s z))).2 } s t) ∧
    (∃ t, exec (.aslAbs w) s = .next t ∧
      Stores 3 (eaAbs w) (asl (s.memRead .data (eaAbs w))).1 { nz (asl (s.memRead .data (eaAbs w))).1 s.p with c := (asl (s.memRead .data (eaAbs w))).2 } s t) ∧
    (∃ t, exec (.aslAbsX w) s = .next t ∧
      Stores 3 (eaAbsX s w) (asl (s.memRead .data (eaAbsX s w))).1 { nz (asl (s.memRead .data (eaAbsX s w))).1 s.p with c := (asl (s.memRead .data (eaAbsX s w))).2 } s t) ∧
    exec .lsrAcc s = .next (shiftedA (lsr s.a) s) ∧
    (∃ t, exec (.lsrZp z) s = .next t ∧
      Stores 2 (eaZp z) (lsr (s.memRead .data (eaZp z))).1 { nz (lsr (s.memRead .data (eaZp z))).1 s.p with c := (lsr (s.memRead .data (eaZp z))).2 } s t) ∧
    (∃ t, exec (.lsrZpX z) s = .next t ∧
      Stores 2 (eaZpX s z) (lsr (s.memRead .data (eaZpX s z))).1 { nz (lsr (s.memRead .data (eaZpX s z))).1 s.p with c := (lsr (s.memRead .data (eaZpX s z))).2 } s t) ∧
    (∃ t, exec (.lsrAbs w) s = .next t ∧
      Stores 3 (eaAbs w) (lsr (s.memRead .data (eaAbs w))).1 { nz (lsr (s.memRead .data (eaAbs w))).1 s.p with c := (lsr (s.memRead .data (eaAbs w))).2 } s t) ∧
    (∃ t, exec (.lsrAbsX w) s = .next t ∧
      Stores 3 (eaAbsX s w) (lsr (s.memRead .data (eaAbsX s w))).1 { nz (lsr (s.memRead .data (eaAbsX s w))).1 s.p with c := (lsr (s.memRead .data (eaAbsX s w))).2 } s t) ∧
    encode .aslAcc = [0x0A] ∧
    encode (.aslZp z) = [0x06, z] ∧
    encode (.aslZpX z) = [0x16, z] ∧
    encode (.aslAbs w) = [0x0E, loByte w, hiByte w] ∧
    encode (.aslAbsX w) = [0x1E, loByte w, hiByte w] ∧
    encode .lsrAcc = [0x4A] ∧
    encode (.lsrZp z) = [0x46, z] ∧
    encode (.lsrZpX z) = [0x56, z] ∧
    encode (.lsrAbs w) = [0x4E, loByte w, hiByte w] ∧
    encode (.lsrAbsX w) = [0x5E, loByte w, hiByte w]

/-- ROL and ROR rotate through the carry, on A and on memory (R162, R163). -/
def Obligations.RotatesGoThroughCarry : Prop :=
  ∀ (s : State) (z : Byte) (w : Addr),
    exec .rolAcc s = .next (shiftedA (rol s.p.c s.a) s) ∧
    (∃ t, exec (.rolZp z) s = .next t ∧
      Stores 2 (eaZp z) (rol s.p.c (s.memRead .data (eaZp z))).1 { nz (rol s.p.c (s.memRead .data (eaZp z))).1 s.p with c := (rol s.p.c (s.memRead .data (eaZp z))).2 } s t) ∧
    (∃ t, exec (.rolZpX z) s = .next t ∧
      Stores 2 (eaZpX s z) (rol s.p.c (s.memRead .data (eaZpX s z))).1 { nz (rol s.p.c (s.memRead .data (eaZpX s z))).1 s.p with c := (rol s.p.c (s.memRead .data (eaZpX s z))).2 } s t) ∧
    (∃ t, exec (.rolAbs w) s = .next t ∧
      Stores 3 (eaAbs w) (rol s.p.c (s.memRead .data (eaAbs w))).1 { nz (rol s.p.c (s.memRead .data (eaAbs w))).1 s.p with c := (rol s.p.c (s.memRead .data (eaAbs w))).2 } s t) ∧
    (∃ t, exec (.rolAbsX w) s = .next t ∧
      Stores 3 (eaAbsX s w) (rol s.p.c (s.memRead .data (eaAbsX s w))).1 { nz (rol s.p.c (s.memRead .data (eaAbsX s w))).1 s.p with c := (rol s.p.c (s.memRead .data (eaAbsX s w))).2 } s t) ∧
    exec .rorAcc s = .next (shiftedA (ror s.p.c s.a) s) ∧
    (∃ t, exec (.rorZp z) s = .next t ∧
      Stores 2 (eaZp z) (ror s.p.c (s.memRead .data (eaZp z))).1 { nz (ror s.p.c (s.memRead .data (eaZp z))).1 s.p with c := (ror s.p.c (s.memRead .data (eaZp z))).2 } s t) ∧
    (∃ t, exec (.rorZpX z) s = .next t ∧
      Stores 2 (eaZpX s z) (ror s.p.c (s.memRead .data (eaZpX s z))).1 { nz (ror s.p.c (s.memRead .data (eaZpX s z))).1 s.p with c := (ror s.p.c (s.memRead .data (eaZpX s z))).2 } s t) ∧
    (∃ t, exec (.rorAbs w) s = .next t ∧
      Stores 3 (eaAbs w) (ror s.p.c (s.memRead .data (eaAbs w))).1 { nz (ror s.p.c (s.memRead .data (eaAbs w))).1 s.p with c := (ror s.p.c (s.memRead .data (eaAbs w))).2 } s t) ∧
    (∃ t, exec (.rorAbsX w) s = .next t ∧
      Stores 3 (eaAbsX s w) (ror s.p.c (s.memRead .data (eaAbsX s w))).1 { nz (ror s.p.c (s.memRead .data (eaAbsX s w))).1 s.p with c := (ror s.p.c (s.memRead .data (eaAbsX s w))).2 } s t) ∧
    encode .rolAcc = [0x2A] ∧
    encode (.rolZp z) = [0x26, z] ∧
    encode (.rolZpX z) = [0x36, z] ∧
    encode (.rolAbs w) = [0x2E, loByte w, hiByte w] ∧
    encode (.rolAbsX w) = [0x3E, loByte w, hiByte w] ∧
    encode .rorAcc = [0x6A] ∧
    encode (.rorZp z) = [0x66, z] ∧
    encode (.rorZpX z) = [0x76, z] ∧
    encode (.rorAbs w) = [0x6E, loByte w, hiByte w] ∧
    encode (.rorAbsX w) = [0x7E, loByte w, hiByte w]

/-- INC and DEC step a byte of memory modulo 256, C and V unchanged (R164, R165). -/
def Obligations.IncDecStepMemory : Prop :=
  ∀ (s : State) (z : Byte) (w : Addr),
    (∃ t, exec (.incZp z) s = .next t ∧
      Stores 2 (eaZp z) (BitVec.ofNat 8 ((s.memRead .data (eaZp z)).toNat + 1))
        (nz (BitVec.ofNat 8 ((s.memRead .data (eaZp z)).toNat + 1)) s.p) s t) ∧
    (∃ t, exec (.incZpX z) s = .next t ∧
      Stores 2 (eaZpX s z) (BitVec.ofNat 8 ((s.memRead .data (eaZpX s z)).toNat + 1))
        (nz (BitVec.ofNat 8 ((s.memRead .data (eaZpX s z)).toNat + 1)) s.p) s t) ∧
    (∃ t, exec (.incAbs w) s = .next t ∧
      Stores 3 (eaAbs w) (BitVec.ofNat 8 ((s.memRead .data (eaAbs w)).toNat + 1))
        (nz (BitVec.ofNat 8 ((s.memRead .data (eaAbs w)).toNat + 1)) s.p) s t) ∧
    (∃ t, exec (.incAbsX w) s = .next t ∧
      Stores 3 (eaAbsX s w) (BitVec.ofNat 8 ((s.memRead .data (eaAbsX s w)).toNat + 1))
        (nz (BitVec.ofNat 8 ((s.memRead .data (eaAbsX s w)).toNat + 1)) s.p) s t) ∧
    (∃ t, exec (.decZp z) s = .next t ∧
      Stores 2 (eaZp z) (BitVec.ofNat 8 ((s.memRead .data (eaZp z)).toNat + 255))
        (nz (BitVec.ofNat 8 ((s.memRead .data (eaZp z)).toNat + 255)) s.p) s t) ∧
    (∃ t, exec (.decZpX z) s = .next t ∧
      Stores 2 (eaZpX s z) (BitVec.ofNat 8 ((s.memRead .data (eaZpX s z)).toNat + 255))
        (nz (BitVec.ofNat 8 ((s.memRead .data (eaZpX s z)).toNat + 255)) s.p) s t) ∧
    (∃ t, exec (.decAbs w) s = .next t ∧
      Stores 3 (eaAbs w) (BitVec.ofNat 8 ((s.memRead .data (eaAbs w)).toNat + 255))
        (nz (BitVec.ofNat 8 ((s.memRead .data (eaAbs w)).toNat + 255)) s.p) s t) ∧
    (∃ t, exec (.decAbsX w) s = .next t ∧
      Stores 3 (eaAbsX s w) (BitVec.ofNat 8 ((s.memRead .data (eaAbsX s w)).toNat + 255))
        (nz (BitVec.ofNat 8 ((s.memRead .data (eaAbsX s w)).toNat + 255)) s.p) s t) ∧
    encode (.incZp z) = [0xE6, z] ∧
    encode (.incZpX z) = [0xF6, z] ∧
    encode (.incAbs w) = [0xEE, loByte w, hiByte w] ∧
    encode (.incAbsX w) = [0xFE, loByte w, hiByte w] ∧
    encode (.decZp z) = [0xC6, z] ∧
    encode (.decZpX z) = [0xD6, z] ∧
    encode (.decAbs w) = [0xCE, loByte w, hiByte w] ∧
    encode (.decAbsX w) = [0xDE, loByte w, hiByte w]

/-- INX, INY, DEX, DEY step an index register modulo 256 (R166, R167, R168, R169). -/
def Obligations.IndexRegistersStep : Prop :=
  ∀ (s : State),
    exec .inx s = .next { passed 1 s with x := (BitVec.ofNat 8 (s.x.toNat + 1)), p := nz (BitVec.ofNat 8 (s.x.toNat + 1)) s.p } ∧
    exec .iny s = .next { passed 1 s with y := (BitVec.ofNat 8 (s.y.toNat + 1)), p := nz (BitVec.ofNat 8 (s.y.toNat + 1)) s.p } ∧
    exec .dex s = .next { passed 1 s with x := (BitVec.ofNat 8 (s.x.toNat + 255)), p := nz (BitVec.ofNat 8 (s.x.toNat + 255)) s.p } ∧
    exec .dey s = .next { passed 1 s with y := (BitVec.ofNat 8 (s.y.toNat + 255)), p := nz (BitVec.ofNat 8 (s.y.toNat + 255)) s.p } ∧
    encode .inx = [0xE8] ∧
    encode .iny = [0xC8] ∧
    encode .dex = [0xCA] ∧
    encode .dey = [0x88]

/-- The eight branches test one flag and go to the next instruction plus a signed offset (R180, R181, R182, R183, R184,
R185, R186, R187, R188). -/
def Obligations.BranchesTestOneFlag : Prop :=
  ∀ (s : State) (r : Byte),
    exec (.bcc r) s = .next (branched (!s.p.c) r s) ∧
    exec (.bcs r) s = .next (branched s.p.c r s) ∧
    exec (.beq r) s = .next (branched s.p.z r s) ∧
    exec (.bmi r) s = .next (branched s.p.n r s) ∧
    exec (.bne r) s = .next (branched (!s.p.z) r s) ∧
    exec (.bpl r) s = .next (branched (!s.p.n) r s) ∧
    exec (.bvc r) s = .next (branched (!s.p.v) r s) ∧
    exec (.bvs r) s = .next (branched s.p.v r s) ∧
    encode (.bcc r) = [0x90, r] ∧
    encode (.bcs r) = [0xB0, r] ∧
    encode (.beq r) = [0xF0, r] ∧
    encode (.bmi r) = [0x30, r] ∧
    encode (.bne r) = [0xD0, r] ∧
    encode (.bpl r) = [0x10, r] ∧
    encode (.bvc r) = [0x50, r] ∧
    encode (.bvs r) = [0x70, r]

/-- JMP absolute and indirect; the indirect pointer wraps in its page (R189, R190). -/
def Obligations.JmpSetsProgramCounter : Prop :=
  ∀ (s : State) (w : Addr),
    exec (.jmpAbs w) s = .next (jumped w s) ∧
    exec (.jmpInd w) s = .next
      (jumped
        (BitVec.ofNat 16
          ((s.memRead .pointerHigh (BitVec.ofNat 16 (w.toNat / 256 * 256 + (w.toNat + 1) % 256))).toNat * 256 +
            (s.memRead .pointerLow w).toNat)) s) ∧
    encode (.jmpAbs w) = [0x4C, loByte w, hiByte w] ∧
    encode (.jmpInd w) = [0x6C, loByte w, hiByte w]

/-- JSR (R191). -/
def Obligations.JsrPushesReturnAddress : Prop :=
  ∀ (s : State) (w : Addr),
    ((∀ k ∈ [1, 2], ∀ sp ∈ [s.sp, s.sp - 1], s.loc (s.pc + BitVec.ofNat 16 k) ≠ s.loc (page1 sp)) →
      ∃ t, exec (.jsr w) s = .next t ∧ t = { jumped w s with sp := s.sp - 2, mem := t.mem } ∧
        StoresOnly s t [(page1 s.sp, hiByte (s.pc + 2)), (page1 (s.sp - 1), loByte (s.pc + 2))]) ∧
    ((∃ k ∈ [1, 2], ∃ sp ∈ [s.sp, s.sp - 1], s.loc (s.pc + BitVec.ofNat 16 k) = s.loc (page1 sp)) →
      exec (.jsr w) s = .refused (.pushOverOperand s.pc)) ∧
    encode (.jsr w) = [0x20, loByte w, hiByte w]

/-- RTS (R192). -/
def Obligations.RtsPullsReturnAddress : Prop :=
  ∀ s : State,
    exec .rts s = .next
      { jumped
          (BitVec.ofNat 16
            ((s.memRead .pull2 (page1 (s.sp + 2))).toNat * 256 + (s.memRead .pull1 (page1 (s.sp + 1))).toNat + 1)) s with
        sp := s.sp + 2 } ∧
    encode .rts = [0x60]

/-- JSR and RTS are inverse (R191, R192). -/
def Obligations.JsrThenRtsReturns : Prop :=
  ∀ (s t : State) (w : Addr), StackRam 2 s → exec (.jsr w) s = .next t →
    ∃ u, exec .rts t = .next u ∧ u.pc = s.pc + 3 ∧ u.sp = s.sp ∧ u.a = s.a ∧ u.x = s.x ∧ u.y = s.y ∧ u.p = s.p

/-- PHA writes A at $0100 + S and then decrements S (R200). -/
def Obligations.PhaPushesAccumulator : Prop :=
  ∀ s : State,
    (∃ t, exec .pha s = .next t ∧ t = { passed 1 s with sp := s.sp - 1, mem := t.mem } ∧
      StoresOnly s t [(page1 s.sp, s.a)]) ∧
    encode .pha = [0x48]

/-- PHP pushes the image of P with bits 5 and 4 set (R201). -/
def Obligations.PhpPushesStatus : Prop :=
  ∀ s : State,
    (∃ t, exec .php s = .next t ∧ t = { passed 1 s with sp := s.sp - 1, mem := t.mem } ∧
      StoresOnly s t [(page1 s.sp, pByte s.p true)]) ∧
    encode .php = [0x08]

/-- PLA and PLP (R202, R203). -/
def Obligations.PullsLoadFromStack : Prop :=
  ∀ s : State,
    exec .pla s = .next
      { passed 1 s with
        a := s.memRead .pull1 (page1 (s.sp + 1)), sp := s.sp + 1
        p := nz (s.memRead .pull1 (page1 (s.sp + 1))) s.p } ∧
    exec .plp s = .next
      { passed 1 s with
        p := pulledFlags (s.memRead .pull1 (page1 (s.sp + 1))), sp := s.sp + 1
        boundary := .afterMaskChange s.p.i } ∧
    encode .pla = [0x68] ∧ encode .plp = [0x28]

/-- PHP and PLP are inverse (R35, R36, R201, R203). -/
def Obligations.PhpThenPlpRestoresFlags : Prop :=
  (∀ (s t : State), StackRam 1 s → exec .php s = .next t →
    ∃ u, exec .plp t = .next u ∧ u.p = s.p ∧ u.sp = s.sp ∧ u.a = s.a ∧ u.x = s.x ∧ u.y = s.y) ∧
  (∀ (p : Flags) (b : Bool), flagsOf (p.image b) = p ∧ p.image b = pByte p b)

/-- The seven flag instructions (R204 to R210). -/
def Obligations.FlagInstructionsWriteOneFlag : Prop :=
  ∀ s : State,
    exec .clc s = .next { passed 1 s with p := { s.p with c := false } } ∧
    exec .sec s = .next { passed 1 s with p := { s.p with c := true } } ∧
    exec .cld s = .next { passed 1 s with p := { s.p with d := false } } ∧
    exec .sed s = .next { passed 1 s with p := { s.p with d := true } } ∧
    exec .clv s = .next { passed 1 s with p := { s.p with v := false } } ∧
    exec .cli s = .next { passed 1 s with p := { s.p with i := false }, boundary := .afterMaskChange s.p.i } ∧
    exec .sei s = .next { passed 1 s with p := { s.p with i := true }, boundary := .afterMaskChange s.p.i } ∧
    encode .clc = [0x18] ∧ encode .sec = [0x38] ∧ encode .cld = [0xD8] ∧ encode .sed = [0xF8] ∧
    encode .clv = [0xB8] ∧ encode .cli = [0x58] ∧ encode .sei = [0x78]

/-- NOP (R211). -/
def Obligations.NopAdvancesOnly : Prop :=
  ∀ s : State, exec .nop s = .next (passed 1 s) ∧ encode .nop = [0xEA]

/-- BRK (R212). The second clause, an NMI edge inside BRK (R239, decision D23), is the model's choice, log 13: both
vectors are admitted, and a BRK that takes the NMI vector has served the edge and any request it merged with (R228). -/
def Obligations.BrkEntersHandler : Prop :=
  (∀ s : State, s.during.nmiFalls = false →
    ∃ t, exec .brk s = .next t ∧ Enters 0xFFFE (s.pc + 2) true s t ∧ SamePins s t ∧
      t.nmiLine = s.nmiLine ∧ t.nmiPending = s.nmiPending ∧ t.during = s.during ∧ t.cycles = s.cycles ∧
      t.draws = s.draws + 1 ∧ t.boundary = .afterSequence) ∧
  (∀ s : State, s.during.nmiFalls = true →
    ∃ t, exec .brk s = .next t ∧ SamePins s t ∧ t.cycles = s.cycles ∧ t.draws = s.draws + 1 ∧ t.boundary = .afterSequence ∧
      ((Enters 0xFFFE (s.pc + 2) true s t ∧ t.during = s.during ∧ t.nmiLine = s.nmiLine ∧ t.nmiPending = s.nmiPending) ∨
       (hasNmi s.platform.dev = true ∧ s.nmiLine = true ∧ Enters 0xFFFA (s.pc + 2) true s t ∧
         t.during = { s.during with nmiFalls := false } ∧ t.nmiLine = false ∧ t.nmiPending = false))) ∧
  encode .brk = [0x00]

/-- RTI (R213). -/
def Obligations.RtiPullsStatusThenProgramCounter : Prop :=
  ∀ s : State,
    exec .rti s = .next
      { jumped
          (BitVec.ofNat 16
            ((s.memRead .pull3 (page1 (s.sp + 3))).toNat * 256 + (s.memRead .pull2 (page1 (s.sp + 2))).toNat)) s with
        p := pulledFlags (s.memRead .pull1 (page1 (s.sp + 1))), sp := s.sp + 3 } ∧
    encode .rti = [0x40]

/-- The IRQ sequence (R231). -/
def Obligations.IrqSequenceStacksAndMasks : Prop :=
  (∀ s : State, AtBoundary s →
    ((s.irqLine = true ∧ s.nmiPending = false ∧ s.p.i = false ∧
        (∀ old, s.boundary = .afterMaskChange old → old = false)) ∨ chooseAct s = .irqSequence) →
    ∃ t, step s = .next t ∧ Enters 0xFFFE s.pc false s t ∧ SamePins s t ∧ t.nmiLine = s.nmiLine ∧
      t.nmiPending = s.nmiPending ∧ t.during = During.none ∧ t.cycles = s.cycles + 7) ∧
  (∀ s : State, chooseAct s = .irqSequence →
    s.irqLine = true ∧ s.rdy = true ∧ s.res = true ∧ (s.p.i = false ∨ ∃ old, s.boundary = .afterMaskChange old))

/-- The NMI sequence (R232), over IRQ (R233). -/
def Obligations.NmiSequenceIgnoresMask : Prop :=
  (∀ s : State, AtBoundary s →
    ((s.nmiPending = true ∧ s.boundary ≠ .afterSequence) ∨ chooseAct s = .nmiSequence) →
    ∃ t, step s = .next t ∧ Enters 0xFFFA s.pc false s t ∧ SamePins s t ∧ t.nmiLine = s.nmiLine ∧
      t.nmiPending = false ∧ t.during = During.none ∧ t.cycles = s.cycles + 7) ∧
  (∀ s : State, chooseAct s = .nmiSequence → s.nmiPending = true ∧ s.rdy = true ∧ s.res = true)

/-- RTI undoes an entry (R230, R234, R236). -/
def Obligations.InterruptThenRtiResumes : Prop :=
  ∀ (vector : Addr) (b : Bool) (s : State), StackRam 3 s →
    ∃ u, exec .rti (interruptEntry vector b s) = .next u ∧ u.pc = s.pc ∧ u.p = s.p ∧ u.sp = s.sp ∧
      u.a = s.a ∧ u.x = s.x ∧ u.y = s.y

/-- The choice at a boundary (R225, R226, R233, R239). -/
def Obligations.InterruptRecognitionFollowsMask : Prop :=
  ∀ s : State,
    (s.res = false → chooseAct s = .idle) ∧
    (s.res = true → s.resetDue = true → chooseAct s = .resetSequence) ∧
    (s.res = true → s.resetDue = false → s.rdy = false → chooseAct s = .idle) ∧
    (s.res = true → s.resetDue = false → s.rdy = true →
      (s.nmiPending = true → s.boundary ≠ .afterSequence → chooseAct s = .nmiSequence) ∧
      (s.nmiPending = false → s.irqLine = false → chooseAct s = .instruction) ∧
      (s.nmiPending = false → s.irqLine = true → (∀ old, s.boundary = .afterMaskChange old → old = s.p.i) →
        chooseAct s = if s.p.i then .instruction else .irqSequence) ∧
      (s.nmiPending = false → chooseAct s = .instruction ∨ (s.irqLine = true ∧ chooseAct s = .irqSequence)))

/-- The reset sequence (R260). The second clause is the model's: that an NMI edge inside the step leaves no request is
log 15 (DEDUCED, decision D18), and that the sequence counts as whole where RES falls again inside it, which R261
leaves open, is log 16 (DEDUCED). -/
def Obligations.ResetSequenceLoadsVector : Prop :=
  (∀ s : State, Alone s → s.res = true → s.resetDue = true →
    ∃ t, step s = .next t ∧ t.p.i = true ∧
      t.pc = joinBytes (s.memRead .vectorHigh 0xFFFD) (s.memRead .vectorLow 0xFFFC) ∧
      t.nmiPending = false ∧ t.mem = s.mem ∧ t.resetDue = false ∧ t.irqLine = s.irqLine ∧ t.rdy = s.rdy ∧
      t.res = true ∧ t.nmiLine = s.nmiLine ∧ t.soLine = s.soLine ∧ t.platform = s.platform ∧ t.schedule = []) ∧
  (∀ (s : State) (d : During) (dma : List DmaWrite), s.res = true → s.resetDue = true →
    ∃ t, cpuStep d dma s = .next t ∧ t.p.i = true ∧ t.nmiPending = false ∧ t.resetDue = false ∧
      (d.nmiFalls = true → hasNmi s.platform.dev = true → t.nmiLine = false))

/-- State.reset has the values of R40; the values the spec leaves open are the model's (log 1 to 4) and not stated. -/
def Obligations.ResetStateValues : Prop :=
  State.reset.p.i = true ∧ State.reset.nmiPending = false ∧ State.reset.res = true ∧
  State.reset.pc = joinBytes (State.reset.memRead .vectorHigh 0xFFFD) (State.reset.memRead .vectorLow 0xFFFC)

/-- A held CPU (R62, R225, R244, R261). -/
def Obligations.HeldCpuChangesNothing : Prop :=
  ∀ s : State, Alone s → (s.res = false ∨ (s.rdy = false ∧ s.resetDue = false)) → step s = .next s

/-- SO (R227). -/
def Obligations.SoEdgeSetsOverflow : Prop :=
  (∀ s : State, envStep (.setSo false) s =
    if hasSo s.platform.dev then { s with soLine := false, p := { s.p with v := s.p.v || s.soLine } } else s) ∧
  (∀ (s t : State), hasSo s.platform.dev = true → s.soLine = true →
    actWritesV (beginStep ⟨false, true, false⟩ [] s) = false → cpuStep ⟨false, true, false⟩ [] s = .next t →
    t.p.v = true ∧ t.soLine = false)

/-- NMI is edge-triggered and latched (R222, R228), on a device that has it (R39, R245). The last clause, an edge inside
a CPU step, admits the redirection of R239 as log 13 chooses, and follows R260 and log 15 for the reset sequence. -/
def Obligations.NmiEdgesAreMerged : Prop :=
  ∀ s : State,
    (hasNmi s.platform.dev = true →
      (envStep (.setNmi false) s).nmiPending = (s.nmiPending || s.nmiLine) ∧
      (envStep (.setNmi true) s).nmiPending = s.nmiPending ∧
      (s.nmiLine = false → envStep (.setNmi false) s = s) ∧
      (∀ high, envStep (.setNmi false) (envStep (.setNmi high) (envStep (.setNmi false) s)) =
        { s with nmiLine := false, nmiPending := (s.nmiPending || s.nmiLine) || high })) ∧
    (hasNmi s.platform.dev = false → ∀ high, envStep (.setNmi high) s = s) ∧
    (nmiSequence s).nmiPending = false ∧
    (∀ q t : State, q = beginStep ⟨true, false, false⟩ [] s → cpuStep ⟨true, false, false⟩ [] s = .next t →
      hasNmi s.platform.dev = true → s.nmiLine = true →
      t.nmiLine = false ∧
      (chooseAct q = .resetSequence → t.nmiPending = false) ∧
      (chooseAct q ≠ .resetSequence → t.nmiPending = true ∨
        (t.nmiPending = false ∧
          (chooseAct q = .irqSequence ∨ (chooseAct q = .instruction ∧ fetchInstr q = .ok .brk)) ∧
          t.pc = joinBytes (q.memRead .vectorHigh 0xFFFB) (q.memRead .vectorLow 0xFFFA))))

/-- IRQ is level-sensitive (R223, R229). -/
def Obligations.IrqLevelIsNotLatched : Prop :=
  ∀ s : State,
    (∀ low, envStep (.setIrq low) s = { s with irqLine := low && hasIrq s.platform.dev }) ∧
    takesIrq (envStep (.setIrq false) (envStep (.setIrq true) s)) = false ∧
    (irqSequence s).irqLine = s.irqLine ∧ (nmiSequence s).irqLine = s.irqLine ∧ (resetSequence s).irqLine = s.irqLine

/-- DMA (R62). -/
def Obligations.DmaOnlyWhileBusIsFree : Prop :=
  ∀ (s : State) (a : Addr) (v : Byte),
    ((s.rdy && s.res) = true → envStep (.dma a v) s = s) ∧
    ((s.rdy && s.res) = false →
      envStep (.dma a v) s = { s with mem := (envStep (.dma a v) s).mem } ∧ StoresOnly s (envStep (.dma a v) s) [(a, v)])

/-- RDY inside a CPU step (R62). The order of the reads of one step, and that memory holds the DMA write from the start
of the step, are the model's bookkeeping (log 7, DEDUCED): for the two vector slots the write really comes after the
pushes, and dmaAfterWrites makes it again there. -/
def Obligations.DmaInsideStepOrdersReads : Prop :=
  ∀ (s : State) (d : During) (j : Slot) (a : Addr) (v : Byte),
    (hasRdy s.platform.dev = true → s.kind a = .ram →
      (∀ k b, s.loc b = s.loc a → (beginStep d [⟨j, a, v⟩] s).memRead k b =
        if slotRank k < slotRank j then s.byteAt b else v) ∧
      StoresOnly s (beginStep d [⟨j, a, v⟩] s) [(a, v)]) ∧
    (hasRdy s.platform.dev = false → beginStep d [⟨j, a, v⟩] s = { s with during := d, replaced := [] })

/-- The addressing modes (R104 to R108, R111, R112). -/
def Obligations.IndexedAddressesWrap : Prop :=
  ∀ (s : State) (z : Byte) (w : Addr),
    (eaZp z).toNat = z.toNat ∧
    (eaZpX s z).toNat = (z.toNat + s.x.toNat) % 256 ∧
    (eaZpY s z).toNat = (z.toNat + s.y.toNat) % 256 ∧
    (eaAbsX s w).toNat = (w.toNat + s.x.toNat) % 65536 ∧
    (eaAbsY s w).toNat = (w.toNat + s.y.toNat) % 65536 ∧
    (eaIndX s z).toNat =
      (s.memRead .pointerLow (BitVec.ofNat 16 ((z.toNat + s.x.toNat) % 256))).toNat +
        256 * (s.memRead .pointerHigh (BitVec.ofNat 16 ((z.toNat + s.x.toNat + 1) % 256))).toNat ∧
    (eaIndY s z).toNat =
      ((s.memRead .pointerLow (BitVec.ofNat 16 z.toNat)).toNat +
        256 * (s.memRead .pointerHigh (BitVec.ofNat 16 ((z.toNat + 1) % 256))).toNat + s.y.toNat) % 65536

/-- Absent address lines (R51). -/
def Obligations.AbsentAddressLinesAlias : Prop :=
  ∀ (s : State) (a b : Addr), a.toNat % 2 ^ addrBits s.platform.dev = b.toNat % 2 ^ addrBits s.platform.dev →
    s.byteAt a = s.byteAt b ∧ s.kind a = s.kind b ∧
    (∀ (k : Slot) (v : Byte), s.kind a = .ram → s.replaced = [] → (s.memWrite a v).memRead k b = v)

/-- Writes and reads (R52, R60). That a write to a device register leaves the state as it was is the model's choice (log
17, DESIGN CHOICE): what the device does with it is the platform's (R7). -/
def Obligations.WritesReachRamOnly : Prop :=
  ∀ (s : State) (a : Addr) (v : Byte),
    StoresOnly s (s.memWrite a v) [(a, v)] ∧ s.memWrite a v = { s with mem := (s.memWrite a v).mem } ∧
    (s.kind a ≠ .ram → s.memWrite a v = s) ∧
    (∀ k, (s.kind a = .ram ∧ s.replaced = []) ∨ s.kind a = .rom → s.memRead k a = s.byteAt a)

/-- Instruction-fetch coherence (R64). -/
def Obligations.StoreSeenByNextFetch : Prop :=
  ∀ (s t : State), s.kind (s.pc + 3) = .ram → s.replaced = [] → exec (.staAbs (s.pc + 3)) s = .next t →
    t.pc = s.pc + 3 ∧ ∃ rest, fetchBytes t = s.a :: rest

/-- The step (R26, R83). -/
def Obligations.StepRunsDecodedInstruction : Prop :=
  ∀ (s : State) (i : Instr) (rest : List Byte), s.aboutToExecute → decode (fetchBytes s) = .ok (i, rest) →
    i.wellFormed = true →
    (∀ t, exec i s = .next t → step s = .next { t with cycles := s.cycles + cyclesOf i s }) ∧
    (∀ r, exec i s = .refused r → step s = .refused r)

/-- Fetching (R25, R26, R83). -/
def Obligations.FetchReadsConsecutiveBytes : Prop :=
  ∀ (s : State) (i : Instr), s.replaced = [] →
    (∀ k < (encode i).length, s.kind (s.pc + BitVec.ofNat 16 k) = .ram ∧
      some (s.byteAt (s.pc + BitVec.ofNat 16 k)) = (encode i)[k]?) →
    fetchBytes s = encode i ∧ fetchInstr s = .ok i

/-- Words of the matrix (R84). -/
def Obligations.KnownWordsDecode : Prop :=
  decode [0xA9, 0x7F] = .ok (.ldaImm 0x7F, []) ∧
  decode [0x6C, 0xFF, 0x30] = .ok (.jmpInd 0x30FF, []) ∧
  decode [0x0A, 0xEA] = .ok (.aslAcc, [0xEA]) ∧
  decode [0xD0, 0xFB] = .ok (.bne 0xFB, []) ∧
  decode [0x91, 0x40] = .ok (.staIndY 0x40, []) ∧
  decode [0x00] = .ok (.brk, []) ∧
  decode [0x7D, 0x34, 0x12] = .ok (.adcAbsX 0x1234, []) ∧
  decode [0x02] = .error (.undefinedOpcode 0x02)

/-- Decode and encode agree (R80 to R84). -/
def Obligations.DecodeInvertsEncode : Prop :=
  ∀ (i : Instr) (rest : List Byte), i.wellFormed = true → decode (encode i ++ rest) = .ok (i, rest)

/-- Encode and decode agree (R80 to R84). -/
def Obligations.EncodeInvertsDecode : Prop :=
  ∀ (bytes rest : List Byte) (i : Instr), decode bytes = .ok (i, rest) →
    bytes = encode i ++ rest ∧ i.wellFormed = true

/-- The undefined op codes (R86). -/
def Obligations.UndefinedOpcodesAreTheListed105 : Prop :=
  (∀ (op : Byte) (rest : List Byte), decode (op :: rest) = .error (.undefinedOpcode op) ↔
    op ∈ ([
      0x02, 0x03, 0x04, 0x07, 0x0B, 0x0C, 0x0F, 0x12, 0x13, 0x14, 0x17, 0x1A, 0x1B, 0x1C, 0x1F,
      0x22, 0x23, 0x27, 0x2B, 0x2F, 0x32, 0x33, 0x34, 0x37, 0x3A, 0x3B, 0x3C, 0x3F, 0x42, 0x43,
      0x44, 0x47, 0x4B, 0x4F, 0x52, 0x53, 0x54, 0x57, 0x5A, 0x5B, 0x5C, 0x5F, 0x62, 0x63, 0x64,
      0x67, 0x6B, 0x6F, 0x72, 0x73, 0x74, 0x77, 0x7A, 0x7B, 0x7C, 0x7F, 0x80, 0x82, 0x83, 0x87,
      0x89, 0x8B, 0x8F, 0x92, 0x93, 0x97, 0x9B, 0x9C, 0x9E, 0x9F, 0xA3, 0xA7, 0xAB, 0xAF, 0xB2,
      0xB3, 0xB7, 0xBB, 0xBF, 0xC2, 0xC3, 0xC7, 0xCB, 0xCF, 0xD2, 0xD3, 0xD4, 0xD7, 0xDA, 0xDB,
      0xDC, 0xDF, 0xE2, 0xE3, 0xE7, 0xEB, 0xEF, 0xF2, 0xF3, 0xF4, 0xF7, 0xFA, 0xFB, 0xFC, 0xFF] : List Byte)) ∧
  (∀ s : State, s.aboutToExecute → decode [s.memRead .opcode s.pc] = .error (.undefinedOpcode (s.memRead .opcode s.pc)) →
    step s = .refused (.undefinedOpcode (s.memRead .opcode s.pc)))

/-- No synchronous fault (R220). -/
def Obligations.OnlyTwoThingsAreRefused : Prop :=
  (∀ s : State, (∃ t, step s = .next t) ∨ ∃ (d : During) (dma : List DmaWrite) (q : State),
    ((s.schedule = [] ∧ d = During.none ∧ dma = []) ∨ s.schedule.head? = some (.cpu d dma)) ∧
    q = beginStep d dma { s with schedule := s.schedule.tail } ∧ chooseAct q = .instruction ∧
    ((step s = .refused (.undefinedOpcode (q.memRead .opcode q.pc)) ∧ formOf (q.memRead .opcode q.pc) = none) ∨
     (step s = .refused (.pushOverOperand q.pc) ∧ (∃ w, fetchInstr q = .ok (.jsr w)) ∧
       ∃ k ∈ [1, 2], ∃ sp ∈ [q.sp, q.sp - 1], q.loc (q.pc + BitVec.ofNat 16 k) = q.loc (page1 sp)))) ∧
  (∀ (i : Instr) (s : State), (∃ t, exec i s = .next t) ∨ i.mnemonic = .jsr)

/-- The writers of each register and flag (R20 to R34). -/
def Obligations.RegistersHaveTheirWriters : Prop :=
  ∀ (i : Instr) (s t : State), exec i s = .next t →
    (t.a ≠ s.a → i.mnemonic ∈ [Mnemonic.lda, .pla, .txa, .tya, .adc, .sbc, .and, .ora, .eor] ∨ i.mode = .accum) ∧
    (t.x ≠ s.x → i.mnemonic ∈ [Mnemonic.ldx, .tax, .tsx, .inx, .dex]) ∧
    (t.y ≠ s.y → i.mnemonic ∈ [Mnemonic.ldy, .tay, .iny, .dey]) ∧
    (t.sp ≠ s.sp → i.mnemonic ∈ [Mnemonic.txs, .pha, .php, .pla, .plp, .jsr, .rts, .brk, .rti]) ∧
    (t.p.i ≠ s.p.i → i.mnemonic ∈ [Mnemonic.cli, .sei, .plp, .rti, .brk]) ∧
    (t.p.d ≠ s.p.d → i.mnemonic ∈ [Mnemonic.cld, .sed, .plp, .rti]) ∧
    (t.p.v ≠ s.p.v → i.mnemonic ∈ [Mnemonic.clv, .plp, .rti, .adc, .sbc, .bit]) ∧
    (t.p.c ≠ s.p.c → i.mnemonic ∈ [Mnemonic.clc, .sec, .plp, .rti, .adc, .sbc, .cmp, .cpx, .cpy, .asl, .lsr, .rol, .ror]) ∧
    (t.p.n ≠ s.p.n ∨ t.p.z ≠ s.p.z → i.mnemonic ∈
      [Mnemonic.lda, .ldx, .ldy, .tax, .tay, .txa, .tya, .tsx, .pla, .plp, .rti, .adc, .sbc, .and, .ora, .eor, .inc, .dec,
       .inx, .iny, .dex, .dey, .asl, .lsr, .rol, .ror, .cmp, .cpx, .cpy, .bit])

/-- The writers of memory (R100, R170). The exception for BRK is an NMI edge inside it (R239), served as log 13 chooses. -/
def Obligations.MemoryHasItsWriters : Prop :=
  ∀ (i : Instr) (s t : State), exec i s = .next t →
    (t.mem ≠ s.mem → i.mnemonic ∈
      [Mnemonic.sta, .stx, .sty, .asl, .lsr, .rol, .ror, .inc, .dec, .pha, .php, .jsr, .brk] ∧ i.mode ≠ .accum) ∧
    SamePins s t ∧ t.cycles = s.cycles ∧ t.draws = s.draws + 1 ∧
    (i ≠ .brk ∨ s.during.nmiFalls = false →
      t.nmiLine = s.nmiLine ∧ t.nmiPending = s.nmiPending ∧ t.during = s.during)

/-- The invariant (R39, R51, R245). -/
def Obligations.StepKeepsInvariant : Prop :=
  ∀ s t : State, s.Inv → step s = .next t → t.Inv

/-- The invariant at reset (R39, R40). -/
def Obligations.ResetHasInvariant : Prop :=
  State.reset.Inv ∧ ∀ d : Platform, { State.reset with platform := d }.Inv

/-- The platform is fixed (R5, R7). -/
def Obligations.PlatformIsFixed : Prop :=
  ∀ s t : State, step s = .next t → t.platform = s.platform ∧
    ((∀ e, s.schedule.head? ≠ some (.env e)) →
      t.irqLine = s.irqLine ∧ t.rdy = s.rdy ∧ (t.res ≠ s.res → s.res = true ∧ t.res = false) ∧ t.schedule = s.schedule.tail)

/-- RES inside a CPU step (R261). -/
def Obligations.AbandonedWritesAreOldOrNew : Prop :=
  ∀ (s t u : State), cpuStep ⟨false, false, false⟩ [] s = .next t → cpuStep ⟨false, false, true⟩ [] s = .next u →
    u.res = false ∧ ∀ a : Addr, u.byteAt a = s.byteAt a ∨ u.byteAt a = t.byteAt a

/-- Cycles (R114, R270, R271): every cell of the table. That the model carries the counter is log 18. -/
def Obligations.CyclesBetweenTwoAndSeven : Prop :=
  (∀ (i : Instr) (s : State), 2 ≤ cyclesOf i s ∧ cyclesOf i s ≤ 7) ∧
  (∀ (s : State) (m z r : Byte) (w : Addr),
    (∀ i ∈ ([
        .adcImm m, .andImm m, .aslAcc, .clc, .cld, .cli, .clv, .cmpImm m, .cpxImm m, .cpyImm m, .dex,
        .dey, .eorImm m, .inx, .iny, .ldaImm m, .ldxImm m] : List Instr), cyclesOf i s = 2) ∧
    (∀ i ∈ ([
        .ldyImm m, .lsrAcc, .nop, .oraImm m, .rolAcc, .rorAcc, .sbcImm m, .sec, .sed, .sei, .tax, .tay,
        .tsx, .txa, .txs, .tya] : List Instr), cyclesOf i s = 2) ∧
    (∀ i ∈ ([
        .adcZp z, .andZp z, .bitZp z, .cmpZp z, .cpxZp z, .cpyZp z, .eorZp z, .jmpAbs w, .ldaZp z,
        .ldxZp z, .ldyZp z, .oraZp z, .pha, .php, .sbcZp z, .staZp z, .stxZp z, .styZp z] : List Instr), cyclesOf i s = 3) ∧
    (∀ i ∈ ([
        .adcAbs w, .adcZpX z, .andAbs w, .andZpX z, .bitAbs w, .cmpAbs w, .cmpZpX z, .cpxAbs w,
        .cpyAbs w, .eorAbs w, .eorZpX z, .ldaAbs w, .ldaZpX z, .ldxAbs w, .ldxZpY z, .ldyAbs w,
        .ldyZpX z, .oraAbs w, .oraZpX z, .pla, .plp, .sbcAbs w, .sbcZpX z, .staAbs w, .staZpX z,
        .stxAbs w, .stxZpY z, .styAbs w, .styZpX z] : List Instr), cyclesOf i s = 4) ∧
    (∀ i ∈ ([
        .aslZp z, .decZp z, .incZp z, .jmpInd w, .lsrZp z, .rolZp z, .rorZp z, .staAbsX w, .staAbsY w] : List Instr), cyclesOf i s = 5) ∧
    (∀ i ∈ ([
        .adcIndX z, .andIndX z, .aslAbs w, .aslZpX z, .cmpIndX z, .decAbs w, .decZpX z, .eorIndX z,
        .incAbs w, .incZpX z, .jsr w, .ldaIndX z, .lsrAbs w, .lsrZpX z, .oraIndX z, .rolAbs w,
        .rolZpX z, .rorAbs w, .rorZpX z, .rti, .rts, .sbcIndX z, .staIndX z, .staIndY z] : List Instr), cyclesOf i s = 6) ∧
    (∀ i ∈ ([
        .aslAbsX w, .brk, .decAbsX w, .incAbsX w, .lsrAbsX w, .rolAbsX w, .rorAbsX w] : List Instr), cyclesOf i s = 7) ∧
    (∀ i ∈ ([
        .adcAbsX w, .andAbsX w, .cmpAbsX w, .eorAbsX w, .ldaAbsX w, .ldyAbsX w, .oraAbsX w, .sbcAbsX w] : List Instr),
      cyclesOf i s = if w.toNat / 256 ≠ (w.toNat + s.x.toNat) / 256 then 5 else 4) ∧
    (∀ i ∈ ([
        .adcAbsY w, .andAbsY w, .cmpAbsY w, .eorAbsY w, .ldaAbsY w, .ldxAbsY w, .oraAbsY w, .sbcAbsY w] : List Instr),
      cyclesOf i s = if w.toNat / 256 ≠ (w.toNat + s.y.toNat) / 256 then 5 else 4) ∧
    (∀ i ∈ ([
        .adcIndY z, .andIndY z, .cmpIndY z, .eorIndY z, .ldaIndY z, .oraIndY z, .sbcIndY z] : List Instr), ∀ base : Nat,
      base = (s.memRead .pointerLow (BitVec.ofNat 16 z.toNat)).toNat +
        256 * (s.memRead .pointerHigh (BitVec.ofNat 16 ((z.toNat + 1) % 256))).toNat →
      cyclesOf i s = if base / 256 ≠ (base + s.y.toNat) / 256 then 6 else 5) ∧
    (∀ taken i, (taken, i) ∈ ([
        (!s.p.c, .bcc r), (s.p.c, .bcs r), (s.p.z, .beq r), (s.p.n, .bmi r), (!s.p.z, .bne r),
        (!s.p.n, .bpl r), (!s.p.v, .bvc r), (s.p.v, .bvs r)] : List (Bool × Instr)) →
      cyclesOf i s =
        if taken then
          if (BitVec.ofInt 16 ((s.pc.toNat : Int) + 2 + r.toInt)).toNat / 256 = (s.pc.toNat + 2) % 65536 / 256 then 3 else 4
        else 2))

/-- RES (R221, R260). -/
def Obligations.RunFromVectorAfterRes : Prop :=
  ∀ s : State, s.res = false → s.schedule = [.env (.setRes true)] → s.during = During.none → s.replaced = [] →
    ∃ t u, step s = .next t ∧ step t = .next u ∧ u.p.i = true ∧ u.res = true ∧ u.mem = s.mem ∧
      u.pc = joinBytes (s.memRead .vectorHigh 0xFFFD) (s.memRead .vectorLow 0xFFFC)
end

