-- ==== Sys2Proof/Laws/Memory.lean ====
section
/-! SUPPORT. The laws of memory: a read after a write, and that every memory operation keeps the canonical form. -/

namespace Sys2Proof.Machine

theorem Memory.read_erase_same (m : Memory) (loc : Nat) : Memory.read (Memory.erase m loc) loc = Memory.unlisted := by
  induction m with
  | nil => rfl
  | cons c m ih =>
    obtain ⟨k, w⟩ := c
    by_cases h : k = loc <;> simp [Memory.erase, Memory.read, h, ih]

theorem Memory.read_erase_other (m : Memory) (loc loc' : Nat) (h : loc' ≠ loc) :
    Memory.read (Memory.erase m loc) loc' = Memory.read m loc' := by
  induction m with
  | nil => rfl
  | cons c m ih =>
    obtain ⟨k, w⟩ := c
    by_cases hk : k = loc
    · subst hk; simp [Memory.erase, Memory.read, ih, Ne.symm h]
    · by_cases hk' : k = loc' <;> simp [Memory.erase, Memory.read, hk, hk', ih, h]

/-- No entry of a memory is for the location. -/
theorem Memory.erase_fresh (m : Memory) (loc : Nat) : ∀ c ∈ Memory.erase m loc, c.1 ≠ loc := by
  induction m with
  | nil => simp [Memory.erase]
  | cons c m ih =>
    obtain ⟨k, w⟩ := c
    by_cases h : k = loc
    · simpa [Memory.erase, h] using ih
    · simpa [Memory.erase, h] using ih

theorem Memory.read_insert (m : Memory) (loc : Nat) (v : Byte) (fresh : ∀ c ∈ m, c.1 ≠ loc) (loc' : Nat) :
    Memory.read (Memory.insert m loc v) loc' = if loc' = loc then v else Memory.read m loc' := by
  induction m with
  | nil => by_cases h : loc' = loc <;> simp [Memory.insert, Memory.read, h, Ne.symm]
  | cons c m ih =>
    obtain ⟨k, w⟩ := c
    have hk : k ≠ loc := fresh (k, w) (by simp)
    have ih := ih fun c hc => fresh c (by simp [hc])
    by_cases hle : loc ≤ k
    · by_cases h : loc' = loc
      · simp [Memory.insert, hle, Memory.read, h]
      · simp [Memory.insert, hle, Memory.read, h, Ne.symm h]
    · by_cases h : k = loc'
      · subst h; simp [Memory.insert, hle, Memory.read, hk]
      · simp [Memory.insert, hle, Memory.read, h, ih]

/-- A read after a write: the value written at the location, every other location as before. -/
theorem Memory.read_write (m : Memory) (loc : Nat) (v : Byte) (loc' : Nat) :
    Memory.read (Memory.write m loc v) loc' = if loc' = loc then v else Memory.read m loc' := by
  unfold Memory.write
  by_cases hv : v = Memory.unlisted
  · by_cases h : loc' = loc
    · simp [hv, h, Memory.read_erase_same]
    · simp [hv, h, Memory.read_erase_other m loc loc' h]
  · rw [if_neg hv, Memory.read_insert _ _ _ (Memory.erase_fresh m loc)]
    by_cases h : loc' = loc
    · simp [h]
    · simp [h, Memory.read_erase_other m loc loc' h]

theorem Memory.mem_erase (m : Memory) (loc : Nat) : ∀ c ∈ Memory.erase m loc, c ∈ m := by
  induction m with
  | nil => simp [Memory.erase]
  | cons c m ih =>
    obtain ⟨k, w⟩ := c
    intro c hc
    by_cases h : k = loc
    · simp only [Memory.erase, h, if_true] at hc; exact List.mem_cons_of_mem _ (ih c hc)
    · simp only [Memory.erase, h, if_false, List.mem_cons] at hc
      rcases hc with hc | hc
      · simp [hc]
      · exact List.mem_cons_of_mem _ (ih c hc)

theorem Memory.wf_erase (m : Memory) (loc : Nat) (h : Memory.wf m) : Memory.wf (Memory.erase m loc) := by
  refine ⟨?_, fun c hc => h.2 c (Memory.mem_erase m loc c hc)⟩
  obtain ⟨h, -⟩ := h
  induction m with
  | nil => simp [Memory.erase]
  | cons c m ih =>
    obtain ⟨k, w⟩ := c
    rw [List.pairwise_cons] at h
    by_cases hk : k = loc
    · simpa [Memory.erase, hk] using ih h.2
    · simp only [Memory.erase, hk, if_false, List.pairwise_cons]
      exact ⟨fun c hc => h.1 c (Memory.mem_erase m loc c hc), ih h.2⟩

theorem Memory.mem_insert (m : Memory) (loc : Nat) (v : Byte) (c : Host.Cell) :
    c ∈ Memory.insert m loc v ↔ c = (loc, v) ∨ c ∈ m := by
  induction m with
  | nil => simp [Memory.insert]
  | cons d m ih =>
    obtain ⟨k, w⟩ := d
    by_cases h : loc ≤ k
    · simp [Memory.insert, h]
    · simp only [Memory.insert, h, if_false, List.mem_cons, ih]; tauto

theorem Memory.wf_insert (m : Memory) (loc : Nat) (v : Byte) (hv : v ≠ Memory.unlisted)
    (fresh : ∀ c ∈ m, c.1 ≠ loc) (h : Memory.wf m) : Memory.wf (Memory.insert m loc v) := by
  refine ⟨?_, fun c hc => ?_⟩
  · obtain ⟨h, -⟩ := h
    induction m with
    | nil => simp [Memory.insert]
    | cons d m ih =>
      obtain ⟨k, w⟩ := d
      have hk : k ≠ loc := fresh (k, w) (by simp)
      rw [List.pairwise_cons] at h
      by_cases hle : loc ≤ k
      · have hlt : loc < k := Nat.lt_of_le_of_ne hle (Ne.symm hk)
        simp only [Memory.insert, hle, if_true, List.pairwise_cons, List.mem_cons]
        refine ⟨?_, h.1, h.2⟩
        rintro c (rfl | hc)
        · exact hlt
        · exact Nat.lt_trans hlt (h.1 c hc)
      · simp only [Memory.insert, hle, if_false, List.pairwise_cons]
        refine ⟨fun c hc => ?_, ih (fun c hc => fresh c (by simp [hc])) h.2⟩
        rcases (Memory.mem_insert m loc v c).1 hc with rfl | hc
        · exact Nat.lt_of_not_le hle
        · exact h.1 c hc
  · rcases (Memory.mem_insert m loc v c).1 hc with rfl | hc
    · exact hv
    · exact h.2 c hc

/-- A write keeps the canonical form. -/
theorem Memory.wf_write (m : Memory) (loc : Nat) (v : Byte) (h : Memory.wf m) : Memory.wf (Memory.write m loc v) := by
  unfold Memory.write
  split
  · exact Memory.wf_erase m loc h
  · rename_i hv
    exact Memory.wf_insert _ loc v hv (Memory.erase_fresh m loc) (Memory.wf_erase m loc h)

/-- What a written memory lists is what stood there or the location written. -/
theorem Memory.mem_write (m : Memory) (loc : Nat) (v : Byte) (c : Host.Cell) (hc : c ∈ Memory.write m loc v) :
    c = (loc, v) ∨ c ∈ m := by
  unfold Memory.write at hc
  split at hc
  · exact .inr (Memory.mem_erase m loc c hc)
  · rcases (Memory.mem_insert _ loc v c).1 hc with h | h
    · exact .inl h
    · exact .inr (Memory.mem_erase m loc c h)

/-- A property of memory that the new memory has and every write to a listed location keeps, the mixed memory has. -/
theorem Memory.mix_induction {P : Memory → Prop} (choose : Nat → Bool) (old new : Memory) (hnew : P new)
    (hwrite : ∀ m loc, (loc ∈ old.map Prod.fst ∨ loc ∈ new.map Prod.fst) → P m →
      P (Memory.write m loc (Memory.read old loc))) : P (Memory.mix choose old new) := by
  unfold Memory.mix
  have key : ∀ (l : List Nat) (m : Memory), (∀ loc ∈ l, loc ∈ old.map Prod.fst ∨ loc ∈ new.map Prod.fst) → P m →
      P (l.foldl (fun m loc => if choose loc then m else Memory.write m loc (Memory.read old loc)) m) := by
    intro l
    induction l with
    | nil => intro m _ h; exact h
    | cons k l ih =>
      intro m hl h
      refine ih _ (fun loc hloc => hl loc (by simp [hloc])) ?_
      by_cases hk : choose k
      · simpa [hk] using h
      · simpa [hk] using hwrite m k (hl k (by simp)) h
  exact key _ _ (by simp) hnew

/-- The mixed memory is canonical. -/
theorem Memory.wf_mix (choose : Nat → Bool) (old new : Memory) (h : Memory.wf new) :
    Memory.wf (Memory.mix choose old new) :=
  Memory.mix_induction choose old new h fun m loc _ hm => Memory.wf_write m loc _ hm

/-- Each location of the mixed memory holds its old or its new value. -/
theorem Memory.read_mix (choose : Nat → Bool) (old new : Memory) (loc : Nat) :
    Memory.read (Memory.mix choose old new) loc = Memory.read old loc ∨
      Memory.read (Memory.mix choose old new) loc = Memory.read new loc := by
  refine Memory.mix_induction
    (P := fun m => Memory.read m loc = Memory.read old loc ∨ Memory.read m loc = Memory.read new loc)
    choose old new (.inr rfl) fun m k _ hm => ?_
  rw [Memory.read_write]
  by_cases h : loc = k
  · simp [h]
  · simpa [h] using hm

end Sys2Proof.Machine
end

