-- ==== Sys2Proof/Laws/State.lean ====
section
/-! SUPPORT. What each update of the state leaves in each field, once, and that updates of registers and flags leave
memory reads as they were. -/

namespace Sys2Proof.Machine

variable (s : State)

@[simp] theorem State.withA_a (v : Byte) : (s.withA v).a = v := rfl
@[simp] theorem State.withA_x (v : Byte) : (s.withA v).x = s.x := rfl
@[simp] theorem State.withA_y (v : Byte) : (s.withA v).y = s.y := rfl
@[simp] theorem State.withA_sp (v : Byte) : (s.withA v).sp = s.sp := rfl
@[simp] theorem State.withA_pc (v : Byte) : (s.withA v).pc = s.pc := rfl
@[simp] theorem State.withA_p (v : Byte) : (s.withA v).p = s.p := rfl
@[simp] theorem State.withA_mem (v : Byte) : (s.withA v).mem = s.mem := rfl
@[simp] theorem State.withA_irqLine (v : Byte) : (s.withA v).irqLine = s.irqLine := rfl
@[simp] theorem State.withA_nmiPending (v : Byte) : (s.withA v).nmiPending = s.nmiPending := rfl
@[simp] theorem State.withA_rdy (v : Byte) : (s.withA v).rdy = s.rdy := rfl
@[simp] theorem State.withA_res (v : Byte) : (s.withA v).res = s.res := rfl
@[simp] theorem State.withA_nmiLine (v : Byte) : (s.withA v).nmiLine = s.nmiLine := rfl
@[simp] theorem State.withA_soLine (v : Byte) : (s.withA v).soLine = s.soLine := rfl
@[simp] theorem State.withA_resetDue (v : Byte) : (s.withA v).resetDue = s.resetDue := rfl
@[simp] theorem State.withA_platform (v : Byte) : (s.withA v).platform = s.platform := rfl
@[simp] theorem State.withA_boundary (v : Byte) : (s.withA v).boundary = s.boundary := rfl
@[simp] theorem State.withA_schedule (v : Byte) : (s.withA v).schedule = s.schedule := rfl
@[simp] theorem State.withA_during (v : Byte) : (s.withA v).during = s.during := rfl
@[simp] theorem State.withA_replaced (v : Byte) : (s.withA v).replaced = s.replaced := rfl
@[simp] theorem State.withA_draws (v : Byte) : (s.withA v).draws = s.draws := rfl
@[simp] theorem State.withA_cycles (v : Byte) : (s.withA v).cycles = s.cycles := rfl
@[simp] theorem State.withA_loc (v : Byte) (l : Addr) : (s.withA v).loc l = s.loc l := rfl
@[simp] theorem State.withA_kind (v : Byte) (l : Addr) : (s.withA v).kind l = s.kind l := rfl
@[simp] theorem State.withA_byteAt (v : Byte) (l : Addr) : (s.withA v).byteAt l = s.byteAt l := rfl
@[simp] theorem State.withA_memRead (v : Byte) (k : Slot) (l : Addr) :
    (s.withA v).memRead k l = s.memRead k l := rfl

@[simp] theorem State.withX_a (v : Byte) : (s.withX v).a = s.a := rfl
@[simp] theorem State.withX_x (v : Byte) : (s.withX v).x = v := rfl
@[simp] theorem State.withX_y (v : Byte) : (s.withX v).y = s.y := rfl
@[simp] theorem State.withX_sp (v : Byte) : (s.withX v).sp = s.sp := rfl
@[simp] theorem State.withX_pc (v : Byte) : (s.withX v).pc = s.pc := rfl
@[simp] theorem State.withX_p (v : Byte) : (s.withX v).p = s.p := rfl
@[simp] theorem State.withX_mem (v : Byte) : (s.withX v).mem = s.mem := rfl
@[simp] theorem State.withX_irqLine (v : Byte) : (s.withX v).irqLine = s.irqLine := rfl
@[simp] theorem State.withX_nmiPending (v : Byte) : (s.withX v).nmiPending = s.nmiPending := rfl
@[simp] theorem State.withX_rdy (v : Byte) : (s.withX v).rdy = s.rdy := rfl
@[simp] theorem State.withX_res (v : Byte) : (s.withX v).res = s.res := rfl
@[simp] theorem State.withX_nmiLine (v : Byte) : (s.withX v).nmiLine = s.nmiLine := rfl
@[simp] theorem State.withX_soLine (v : Byte) : (s.withX v).soLine = s.soLine := rfl
@[simp] theorem State.withX_resetDue (v : Byte) : (s.withX v).resetDue = s.resetDue := rfl
@[simp] theorem State.withX_platform (v : Byte) : (s.withX v).platform = s.platform := rfl
@[simp] theorem State.withX_boundary (v : Byte) : (s.withX v).boundary = s.boundary := rfl
@[simp] theorem State.withX_schedule (v : Byte) : (s.withX v).schedule = s.schedule := rfl
@[simp] theorem State.withX_during (v : Byte) : (s.withX v).during = s.during := rfl
@[simp] theorem State.withX_replaced (v : Byte) : (s.withX v).replaced = s.replaced := rfl
@[simp] theorem State.withX_draws (v : Byte) : (s.withX v).draws = s.draws := rfl
@[simp] theorem State.withX_cycles (v : Byte) : (s.withX v).cycles = s.cycles := rfl
@[simp] theorem State.withX_loc (v : Byte) (l : Addr) : (s.withX v).loc l = s.loc l := rfl
@[simp] theorem State.withX_kind (v : Byte) (l : Addr) : (s.withX v).kind l = s.kind l := rfl
@[simp] theorem State.withX_byteAt (v : Byte) (l : Addr) : (s.withX v).byteAt l = s.byteAt l := rfl
@[simp] theorem State.withX_memRead (v : Byte) (k : Slot) (l : Addr) :
    (s.withX v).memRead k l = s.memRead k l := rfl

@[simp] theorem State.withY_a (v : Byte) : (s.withY v).a = s.a := rfl
@[simp] theorem State.withY_x (v : Byte) : (s.withY v).x = s.x := rfl
@[simp] theorem State.withY_y (v : Byte) : (s.withY v).y = v := rfl
@[simp] theorem State.withY_sp (v : Byte) : (s.withY v).sp = s.sp := rfl
@[simp] theorem State.withY_pc (v : Byte) : (s.withY v).pc = s.pc := rfl
@[simp] theorem State.withY_p (v : Byte) : (s.withY v).p = s.p := rfl
@[simp] theorem State.withY_mem (v : Byte) : (s.withY v).mem = s.mem := rfl
@[simp] theorem State.withY_irqLine (v : Byte) : (s.withY v).irqLine = s.irqLine := rfl
@[simp] theorem State.withY_nmiPending (v : Byte) : (s.withY v).nmiPending = s.nmiPending := rfl
@[simp] theorem State.withY_rdy (v : Byte) : (s.withY v).rdy = s.rdy := rfl
@[simp] theorem State.withY_res (v : Byte) : (s.withY v).res = s.res := rfl
@[simp] theorem State.withY_nmiLine (v : Byte) : (s.withY v).nmiLine = s.nmiLine := rfl
@[simp] theorem State.withY_soLine (v : Byte) : (s.withY v).soLine = s.soLine := rfl
@[simp] theorem State.withY_resetDue (v : Byte) : (s.withY v).resetDue = s.resetDue := rfl
@[simp] theorem State.withY_platform (v : Byte) : (s.withY v).platform = s.platform := rfl
@[simp] theorem State.withY_boundary (v : Byte) : (s.withY v).boundary = s.boundary := rfl
@[simp] theorem State.withY_schedule (v : Byte) : (s.withY v).schedule = s.schedule := rfl
@[simp] theorem State.withY_during (v : Byte) : (s.withY v).during = s.during := rfl
@[simp] theorem State.withY_replaced (v : Byte) : (s.withY v).replaced = s.replaced := rfl
@[simp] theorem State.withY_draws (v : Byte) : (s.withY v).draws = s.draws := rfl
@[simp] theorem State.withY_cycles (v : Byte) : (s.withY v).cycles = s.cycles := rfl
@[simp] theorem State.withY_loc (v : Byte) (l : Addr) : (s.withY v).loc l = s.loc l := rfl
@[simp] theorem State.withY_kind (v : Byte) (l : Addr) : (s.withY v).kind l = s.kind l := rfl
@[simp] theorem State.withY_byteAt (v : Byte) (l : Addr) : (s.withY v).byteAt l = s.byteAt l := rfl
@[simp] theorem State.withY_memRead (v : Byte) (k : Slot) (l : Addr) :
    (s.withY v).memRead k l = s.memRead k l := rfl

@[simp] theorem State.withSp_a (v : Byte) : (s.withSp v).a = s.a := rfl
@[simp] theorem State.withSp_x (v : Byte) : (s.withSp v).x = s.x := rfl
@[simp] theorem State.withSp_y (v : Byte) : (s.withSp v).y = s.y := rfl
@[simp] theorem State.withSp_sp (v : Byte) : (s.withSp v).sp = v := rfl
@[simp] theorem State.withSp_pc (v : Byte) : (s.withSp v).pc = s.pc := rfl
@[simp] theorem State.withSp_p (v : Byte) : (s.withSp v).p = s.p := rfl
@[simp] theorem State.withSp_mem (v : Byte) : (s.withSp v).mem = s.mem := rfl
@[simp] theorem State.withSp_irqLine (v : Byte) : (s.withSp v).irqLine = s.irqLine := rfl
@[simp] theorem State.withSp_nmiPending (v : Byte) : (s.withSp v).nmiPending = s.nmiPending := rfl
@[simp] theorem State.withSp_rdy (v : Byte) : (s.withSp v).rdy = s.rdy := rfl
@[simp] theorem State.withSp_res (v : Byte) : (s.withSp v).res = s.res := rfl
@[simp] theorem State.withSp_nmiLine (v : Byte) : (s.withSp v).nmiLine = s.nmiLine := rfl
@[simp] theorem State.withSp_soLine (v : Byte) : (s.withSp v).soLine = s.soLine := rfl
@[simp] theorem State.withSp_resetDue (v : Byte) : (s.withSp v).resetDue = s.resetDue := rfl
@[simp] theorem State.withSp_platform (v : Byte) : (s.withSp v).platform = s.platform := rfl
@[simp] theorem State.withSp_boundary (v : Byte) : (s.withSp v).boundary = s.boundary := rfl
@[simp] theorem State.withSp_schedule (v : Byte) : (s.withSp v).schedule = s.schedule := rfl
@[simp] theorem State.withSp_during (v : Byte) : (s.withSp v).during = s.during := rfl
@[simp] theorem State.withSp_replaced (v : Byte) : (s.withSp v).replaced = s.replaced := rfl
@[simp] theorem State.withSp_draws (v : Byte) : (s.withSp v).draws = s.draws := rfl
@[simp] theorem State.withSp_cycles (v : Byte) : (s.withSp v).cycles = s.cycles := rfl
@[simp] theorem State.withSp_loc (v : Byte) (l : Addr) : (s.withSp v).loc l = s.loc l := rfl
@[simp] theorem State.withSp_kind (v : Byte) (l : Addr) : (s.withSp v).kind l = s.kind l := rfl
@[simp] theorem State.withSp_byteAt (v : Byte) (l : Addr) : (s.withSp v).byteAt l = s.byteAt l := rfl
@[simp] theorem State.withSp_memRead (v : Byte) (k : Slot) (l : Addr) :
    (s.withSp v).memRead k l = s.memRead k l := rfl

@[simp] theorem State.withPc_a (v : Addr) : (s.withPc v).a = s.a := rfl
@[simp] theorem State.withPc_x (v : Addr) : (s.withPc v).x = s.x := rfl
@[simp] theorem State.withPc_y (v : Addr) : (s.withPc v).y = s.y := rfl
@[simp] theorem State.withPc_sp (v : Addr) : (s.withPc v).sp = s.sp := rfl
@[simp] theorem State.withPc_pc (v : Addr) : (s.withPc v).pc = v := rfl
@[simp] theorem State.withPc_p (v : Addr) : (s.withPc v).p = s.p := rfl
@[simp] theorem State.withPc_mem (v : Addr) : (s.withPc v).mem = s.mem := rfl
@[simp] theorem State.withPc_irqLine (v : Addr) : (s.withPc v).irqLine = s.irqLine := rfl
@[simp] theorem State.withPc_nmiPending (v : Addr) : (s.withPc v).nmiPending = s.nmiPending := rfl
@[simp] theorem State.withPc_rdy (v : Addr) : (s.withPc v).rdy = s.rdy := rfl
@[simp] theorem State.withPc_res (v : Addr) : (s.withPc v).res = s.res := rfl
@[simp] theorem State.withPc_nmiLine (v : Addr) : (s.withPc v).nmiLine = s.nmiLine := rfl
@[simp] theorem State.withPc_soLine (v : Addr) : (s.withPc v).soLine = s.soLine := rfl
@[simp] theorem State.withPc_resetDue (v : Addr) : (s.withPc v).resetDue = s.resetDue := rfl
@[simp] theorem State.withPc_platform (v : Addr) : (s.withPc v).platform = s.platform := rfl
@[simp] theorem State.withPc_boundary (v : Addr) : (s.withPc v).boundary = s.boundary := rfl
@[simp] theorem State.withPc_schedule (v : Addr) : (s.withPc v).schedule = s.schedule := rfl
@[simp] theorem State.withPc_during (v : Addr) : (s.withPc v).during = s.during := rfl
@[simp] theorem State.withPc_replaced (v : Addr) : (s.withPc v).replaced = s.replaced := rfl
@[simp] theorem State.withPc_draws (v : Addr) : (s.withPc v).draws = s.draws := rfl
@[simp] theorem State.withPc_cycles (v : Addr) : (s.withPc v).cycles = s.cycles := rfl
@[simp] theorem State.withPc_loc (v : Addr) (l : Addr) : (s.withPc v).loc l = s.loc l := rfl
@[simp] theorem State.withPc_kind (v : Addr) (l : Addr) : (s.withPc v).kind l = s.kind l := rfl
@[simp] theorem State.withPc_byteAt (v : Addr) (l : Addr) : (s.withPc v).byteAt l = s.byteAt l := rfl
@[simp] theorem State.withPc_memRead (v : Addr) (k : Slot) (l : Addr) :
    (s.withPc v).memRead k l = s.memRead k l := rfl

@[simp] theorem State.withP_a (v : Flags) : (s.withP v).a = s.a := rfl
@[simp] theorem State.withP_x (v : Flags) : (s.withP v).x = s.x := rfl
@[simp] theorem State.withP_y (v : Flags) : (s.withP v).y = s.y := rfl
@[simp] theorem State.withP_sp (v : Flags) : (s.withP v).sp = s.sp := rfl
@[simp] theorem State.withP_pc (v : Flags) : (s.withP v).pc = s.pc := rfl
@[simp] theorem State.withP_p (v : Flags) : (s.withP v).p = v := rfl
@[simp] theorem State.withP_mem (v : Flags) : (s.withP v).mem = s.mem := rfl
@[simp] theorem State.withP_irqLine (v : Flags) : (s.withP v).irqLine = s.irqLine := rfl
@[simp] theorem State.withP_nmiPending (v : Flags) : (s.withP v).nmiPending = s.nmiPending := rfl
@[simp] theorem State.withP_rdy (v : Flags) : (s.withP v).rdy = s.rdy := rfl
@[simp] theorem State.withP_res (v : Flags) : (s.withP v).res = s.res := rfl
@[simp] theorem State.withP_nmiLine (v : Flags) : (s.withP v).nmiLine = s.nmiLine := rfl
@[simp] theorem State.withP_soLine (v : Flags) : (s.withP v).soLine = s.soLine := rfl
@[simp] theorem State.withP_resetDue (v : Flags) : (s.withP v).resetDue = s.resetDue := rfl
@[simp] theorem State.withP_platform (v : Flags) : (s.withP v).platform = s.platform := rfl
@[simp] theorem State.withP_boundary (v : Flags) : (s.withP v).boundary = s.boundary := rfl
@[simp] theorem State.withP_schedule (v : Flags) : (s.withP v).schedule = s.schedule := rfl
@[simp] theorem State.withP_during (v : Flags) : (s.withP v).during = s.during := rfl
@[simp] theorem State.withP_replaced (v : Flags) : (s.withP v).replaced = s.replaced := rfl
@[simp] theorem State.withP_draws (v : Flags) : (s.withP v).draws = s.draws := rfl
@[simp] theorem State.withP_cycles (v : Flags) : (s.withP v).cycles = s.cycles := rfl
@[simp] theorem State.withP_loc (v : Flags) (l : Addr) : (s.withP v).loc l = s.loc l := rfl
@[simp] theorem State.withP_kind (v : Flags) (l : Addr) : (s.withP v).kind l = s.kind l := rfl
@[simp] theorem State.withP_byteAt (v : Flags) (l : Addr) : (s.withP v).byteAt l = s.byteAt l := rfl
@[simp] theorem State.withP_memRead (v : Flags) (k : Slot) (l : Addr) :
    (s.withP v).memRead k l = s.memRead k l := rfl

@[simp] theorem State.withMem_a (v : Memory) : (s.withMem v).a = s.a := rfl
@[simp] theorem State.withMem_x (v : Memory) : (s.withMem v).x = s.x := rfl
@[simp] theorem State.withMem_y (v : Memory) : (s.withMem v).y = s.y := rfl
@[simp] theorem State.withMem_sp (v : Memory) : (s.withMem v).sp = s.sp := rfl
@[simp] theorem State.withMem_pc (v : Memory) : (s.withMem v).pc = s.pc := rfl
@[simp] theorem State.withMem_p (v : Memory) : (s.withMem v).p = s.p := rfl
@[simp] theorem State.withMem_mem (v : Memory) : (s.withMem v).mem = v := rfl
@[simp] theorem State.withMem_irqLine (v : Memory) : (s.withMem v).irqLine = s.irqLine := rfl
@[simp] theorem State.withMem_nmiPending (v : Memory) : (s.withMem v).nmiPending = s.nmiPending := rfl
@[simp] theorem State.withMem_rdy (v : Memory) : (s.withMem v).rdy = s.rdy := rfl
@[simp] theorem State.withMem_res (v : Memory) : (s.withMem v).res = s.res := rfl
@[simp] theorem State.withMem_nmiLine (v : Memory) : (s.withMem v).nmiLine = s.nmiLine := rfl
@[simp] theorem State.withMem_soLine (v : Memory) : (s.withMem v).soLine = s.soLine := rfl
@[simp] theorem State.withMem_resetDue (v : Memory) : (s.withMem v).resetDue = s.resetDue := rfl
@[simp] theorem State.withMem_platform (v : Memory) : (s.withMem v).platform = s.platform := rfl
@[simp] theorem State.withMem_boundary (v : Memory) : (s.withMem v).boundary = s.boundary := rfl
@[simp] theorem State.withMem_schedule (v : Memory) : (s.withMem v).schedule = s.schedule := rfl
@[simp] theorem State.withMem_during (v : Memory) : (s.withMem v).during = s.during := rfl
@[simp] theorem State.withMem_replaced (v : Memory) : (s.withMem v).replaced = s.replaced := rfl
@[simp] theorem State.withMem_draws (v : Memory) : (s.withMem v).draws = s.draws := rfl
@[simp] theorem State.withMem_cycles (v : Memory) : (s.withMem v).cycles = s.cycles := rfl
@[simp] theorem State.withMem_loc (v : Memory) (l : Addr) : (s.withMem v).loc l = s.loc l := rfl
@[simp] theorem State.withMem_kind (v : Memory) (l : Addr) : (s.withMem v).kind l = s.kind l := rfl

@[simp] theorem State.finish_a (v : Boundary) : (s.finish v).a = s.a := rfl
@[simp] theorem State.finish_x (v : Boundary) : (s.finish v).x = s.x := rfl
@[simp] theorem State.finish_y (v : Boundary) : (s.finish v).y = s.y := rfl
@[simp] theorem State.finish_sp (v : Boundary) : (s.finish v).sp = s.sp := rfl
@[simp] theorem State.finish_pc (v : Boundary) : (s.finish v).pc = s.pc := rfl
@[simp] theorem State.finish_p (v : Boundary) : (s.finish v).p = s.p := rfl
@[simp] theorem State.finish_mem (v : Boundary) : (s.finish v).mem = s.mem := rfl
@[simp] theorem State.finish_irqLine (v : Boundary) : (s.finish v).irqLine = s.irqLine := rfl
@[simp] theorem State.finish_nmiPending (v : Boundary) : (s.finish v).nmiPending = s.nmiPending := rfl
@[simp] theorem State.finish_rdy (v : Boundary) : (s.finish v).rdy = s.rdy := rfl
@[simp] theorem State.finish_res (v : Boundary) : (s.finish v).res = s.res := rfl
@[simp] theorem State.finish_nmiLine (v : Boundary) : (s.finish v).nmiLine = s.nmiLine := rfl
@[simp] theorem State.finish_soLine (v : Boundary) : (s.finish v).soLine = s.soLine := rfl
@[simp] theorem State.finish_resetDue (v : Boundary) : (s.finish v).resetDue = s.resetDue := rfl
@[simp] theorem State.finish_platform (v : Boundary) : (s.finish v).platform = s.platform := rfl
@[simp] theorem State.finish_boundary (v : Boundary) : (s.finish v).boundary = v := rfl
@[simp] theorem State.finish_schedule (v : Boundary) : (s.finish v).schedule = s.schedule := rfl
@[simp] theorem State.finish_during (v : Boundary) : (s.finish v).during = s.during := rfl
@[simp] theorem State.finish_replaced (v : Boundary) : (s.finish v).replaced = s.replaced := rfl
@[simp] theorem State.finish_draws (v : Boundary) : (s.finish v).draws = s.draws + 1 := rfl
@[simp] theorem State.finish_cycles (v : Boundary) : (s.finish v).cycles = s.cycles := rfl
@[simp] theorem State.finish_loc (v : Boundary) (l : Addr) : (s.finish v).loc l = s.loc l := rfl
@[simp] theorem State.finish_kind (v : Boundary) (l : Addr) : (s.finish v).kind l = s.kind l := rfl
@[simp] theorem State.finish_byteAt (v : Boundary) (l : Addr) : (s.finish v).byteAt l = s.byteAt l := rfl

@[simp] theorem State.advance_a (v : Nat) : (s.advance v).a = s.a := rfl
@[simp] theorem State.advance_x (v : Nat) : (s.advance v).x = s.x := rfl
@[simp] theorem State.advance_y (v : Nat) : (s.advance v).y = s.y := rfl
@[simp] theorem State.advance_sp (v : Nat) : (s.advance v).sp = s.sp := rfl
@[simp] theorem State.advance_pc (v : Nat) : (s.advance v).pc = s.pc + BitVec.ofNat 16 v := rfl
@[simp] theorem State.advance_p (v : Nat) : (s.advance v).p = s.p := rfl
@[simp] theorem State.advance_mem (v : Nat) : (s.advance v).mem = s.mem := rfl
@[simp] theorem State.advance_irqLine (v : Nat) : (s.advance v).irqLine = s.irqLine := rfl
@[simp] theorem State.advance_nmiPending (v : Nat) : (s.advance v).nmiPending = s.nmiPending := rfl
@[simp] theorem State.advance_rdy (v : Nat) : (s.advance v).rdy = s.rdy := rfl
@[simp] theorem State.advance_res (v : Nat) : (s.advance v).res = s.res := rfl
@[simp] theorem State.advance_nmiLine (v : Nat) : (s.advance v).nmiLine = s.nmiLine := rfl
@[simp] theorem State.advance_soLine (v : Nat) : (s.advance v).soLine = s.soLine := rfl
@[simp] theorem State.advance_resetDue (v : Nat) : (s.advance v).resetDue = s.resetDue := rfl
@[simp] theorem State.advance_platform (v : Nat) : (s.advance v).platform = s.platform := rfl
@[simp] theorem State.advance_boundary (v : Nat) : (s.advance v).boundary = s.boundary := rfl
@[simp] theorem State.advance_schedule (v : Nat) : (s.advance v).schedule = s.schedule := rfl
@[simp] theorem State.advance_during (v : Nat) : (s.advance v).during = s.during := rfl
@[simp] theorem State.advance_replaced (v : Nat) : (s.advance v).replaced = s.replaced := rfl
@[simp] theorem State.advance_draws (v : Nat) : (s.advance v).draws = s.draws := rfl
@[simp] theorem State.advance_cycles (v : Nat) : (s.advance v).cycles = s.cycles := rfl
@[simp] theorem State.advance_loc (v : Nat) (l : Addr) : (s.advance v).loc l = s.loc l := rfl
@[simp] theorem State.advance_kind (v : Nat) (l : Addr) : (s.advance v).kind l = s.kind l := rfl
@[simp] theorem State.advance_byteAt (v : Nat) (l : Addr) : (s.advance v).byteAt l = s.byteAt l := rfl
@[simp] theorem State.advance_memRead (v : Nat) (k : Slot) (l : Addr) :
    (s.advance v).memRead k l = s.memRead k l := rfl

@[simp] theorem State.popped_a (v : Nat) : (s.popped v).a = s.a := rfl
@[simp] theorem State.popped_x (v : Nat) : (s.popped v).x = s.x := rfl
@[simp] theorem State.popped_y (v : Nat) : (s.popped v).y = s.y := rfl
@[simp] theorem State.popped_sp (v : Nat) : (s.popped v).sp = s.sp + BitVec.ofNat 8 v := rfl
@[simp] theorem State.popped_pc (v : Nat) : (s.popped v).pc = s.pc := rfl
@[simp] theorem State.popped_p (v : Nat) : (s.popped v).p = s.p := rfl
@[simp] theorem State.popped_mem (v : Nat) : (s.popped v).mem = s.mem := rfl
@[simp] theorem State.popped_irqLine (v : Nat) : (s.popped v).irqLine = s.irqLine := rfl
@[simp] theorem State.popped_nmiPending (v : Nat) : (s.popped v).nmiPending = s.nmiPending := rfl
@[simp] theorem State.popped_rdy (v : Nat) : (s.popped v).rdy = s.rdy := rfl
@[simp] theorem State.popped_res (v : Nat) : (s.popped v).res = s.res := rfl
@[simp] theorem State.popped_nmiLine (v : Nat) : (s.popped v).nmiLine = s.nmiLine := rfl
@[simp] theorem State.popped_soLine (v : Nat) : (s.popped v).soLine = s.soLine := rfl
@[simp] theorem State.popped_resetDue (v : Nat) : (s.popped v).resetDue = s.resetDue := rfl
@[simp] theorem State.popped_platform (v : Nat) : (s.popped v).platform = s.platform := rfl
@[simp] theorem State.popped_boundary (v : Nat) : (s.popped v).boundary = s.boundary := rfl
@[simp] theorem State.popped_schedule (v : Nat) : (s.popped v).schedule = s.schedule := rfl
@[simp] theorem State.popped_during (v : Nat) : (s.popped v).during = s.during := rfl
@[simp] theorem State.popped_replaced (v : Nat) : (s.popped v).replaced = s.replaced := rfl
@[simp] theorem State.popped_draws (v : Nat) : (s.popped v).draws = s.draws := rfl
@[simp] theorem State.popped_cycles (v : Nat) : (s.popped v).cycles = s.cycles := rfl
@[simp] theorem State.popped_loc (v : Nat) (l : Addr) : (s.popped v).loc l = s.loc l := rfl
@[simp] theorem State.popped_kind (v : Nat) (l : Addr) : (s.popped v).kind l = s.kind l := rfl
@[simp] theorem State.popped_byteAt (v : Nat) (l : Addr) : (s.popped v).byteAt l = s.byteAt l := rfl
@[simp] theorem State.popped_memRead (v : Nat) (k : Slot) (l : Addr) :
    (s.popped v).memRead k l = s.memRead k l := rfl

@[simp] theorem State.withMem_byteAt (m : Memory) (l : Addr) : (s.withMem m).byteAt l = Memory.read m (s.loc l) := rfl

@[simp] theorem State.memWrite_a (l : Addr) (v : Byte) : (s.memWrite l v).a = s.a := by
  unfold State.memWrite; split <;> rfl
@[simp] theorem State.memWrite_x (l : Addr) (v : Byte) : (s.memWrite l v).x = s.x := by
  unfold State.memWrite; split <;> rfl
@[simp] theorem State.memWrite_y (l : Addr) (v : Byte) : (s.memWrite l v).y = s.y := by
  unfold State.memWrite; split <;> rfl
@[simp] theorem State.memWrite_sp (l : Addr) (v : Byte) : (s.memWrite l v).sp = s.sp := by
  unfold State.memWrite; split <;> rfl
@[simp] theorem State.memWrite_pc (l : Addr) (v : Byte) : (s.memWrite l v).pc = s.pc := by
  unfold State.memWrite; split <;> rfl
@[simp] theorem State.memWrite_p (l : Addr) (v : Byte) : (s.memWrite l v).p = s.p := by
  unfold State.memWrite; split <;> rfl
@[simp] theorem State.memWrite_irqLine (l : Addr) (v : Byte) : (s.memWrite l v).irqLine = s.irqLine := by
  unfold State.memWrite; split <;> rfl
@[simp] theorem State.memWrite_nmiPending (l : Addr) (v : Byte) : (s.memWrite l v).nmiPending = s.nmiPending := by
  unfold State.memWrite; split <;> rfl
@[simp] theorem State.memWrite_rdy (l : Addr) (v : Byte) : (s.memWrite l v).rdy = s.rdy := by
  unfold State.memWrite; split <;> rfl
@[simp] theorem State.memWrite_res (l : Addr) (v : Byte) : (s.memWrite l v).res = s.res := by
  unfold State.memWrite; split <;> rfl
@[simp] theorem State.memWrite_nmiLine (l : Addr) (v : Byte) : (s.memWrite l v).nmiLine = s.nmiLine := by
  unfold State.memWrite; split <;> rfl
@[simp] theorem State.memWrite_soLine (l : Addr) (v : Byte) : (s.memWrite l v).soLine = s.soLine := by
  unfold State.memWrite; split <;> rfl
@[simp] theorem State.memWrite_resetDue (l : Addr) (v : Byte) : (s.memWrite l v).resetDue = s.resetDue := by
  unfold State.memWrite; split <;> rfl
@[simp] theorem State.memWrite_platform (l : Addr) (v : Byte) : (s.memWrite l v).platform = s.platform := by
  unfold State.memWrite; split <;> rfl
@[simp] theorem State.memWrite_boundary (l : Addr) (v : Byte) : (s.memWrite l v).boundary = s.boundary := by
  unfold State.memWrite; split <;> rfl
@[simp] theorem State.memWrite_schedule (l : Addr) (v : Byte) : (s.memWrite l v).schedule = s.schedule := by
  unfold State.memWrite; split <;> rfl
@[simp] theorem State.memWrite_during (l : Addr) (v : Byte) : (s.memWrite l v).during = s.during := by
  unfold State.memWrite; split <;> rfl
@[simp] theorem State.memWrite_replaced (l : Addr) (v : Byte) : (s.memWrite l v).replaced = s.replaced := by
  unfold State.memWrite; split <;> rfl
@[simp] theorem State.memWrite_draws (l : Addr) (v : Byte) : (s.memWrite l v).draws = s.draws := by
  unfold State.memWrite; split <;> rfl
@[simp] theorem State.memWrite_cycles (l : Addr) (v : Byte) : (s.memWrite l v).cycles = s.cycles := by
  unfold State.memWrite; split <;> rfl
@[simp] theorem State.memWrite_loc (l : Addr) (v : Byte) (l' : Addr) : (s.memWrite l v).loc l' = s.loc l' := by
  unfold State.memWrite; split <;> rfl
@[simp] theorem State.memWrite_kind (l : Addr) (v : Byte) (l' : Addr) : (s.memWrite l v).kind l' = s.kind l' := by
  unfold State.memWrite; split <;> rfl

@[simp] theorem State.push8_a (v : Byte) : (s.push8 v).a = s.a := by simp [State.push8]
@[simp] theorem State.push8_x (v : Byte) : (s.push8 v).x = s.x := by simp [State.push8]
@[simp] theorem State.push8_y (v : Byte) : (s.push8 v).y = s.y := by simp [State.push8]
@[simp] theorem State.push8_pc (v : Byte) : (s.push8 v).pc = s.pc := by simp [State.push8]
@[simp] theorem State.push8_p (v : Byte) : (s.push8 v).p = s.p := by simp [State.push8]
@[simp] theorem State.push8_irqLine (v : Byte) : (s.push8 v).irqLine = s.irqLine := by simp [State.push8]
@[simp] theorem State.push8_nmiPending (v : Byte) : (s.push8 v).nmiPending = s.nmiPending := by simp [State.push8]
@[simp] theorem State.push8_rdy (v : Byte) : (s.push8 v).rdy = s.rdy := by simp [State.push8]
@[simp] theorem State.push8_res (v : Byte) : (s.push8 v).res = s.res := by simp [State.push8]
@[simp] theorem State.push8_nmiLine (v : Byte) : (s.push8 v).nmiLine = s.nmiLine := by simp [State.push8]
@[simp] theorem State.push8_soLine (v : Byte) : (s.push8 v).soLine = s.soLine := by simp [State.push8]
@[simp] theorem State.push8_resetDue (v : Byte) : (s.push8 v).resetDue = s.resetDue := by simp [State.push8]
@[simp] theorem State.push8_platform (v : Byte) : (s.push8 v).platform = s.platform := by simp [State.push8]
@[simp] theorem State.push8_boundary (v : Byte) : (s.push8 v).boundary = s.boundary := by simp [State.push8]
@[simp] theorem State.push8_schedule (v : Byte) : (s.push8 v).schedule = s.schedule := by simp [State.push8]
@[simp] theorem State.push8_during (v : Byte) : (s.push8 v).during = s.during := by simp [State.push8]
@[simp] theorem State.push8_replaced (v : Byte) : (s.push8 v).replaced = s.replaced := by simp [State.push8]
@[simp] theorem State.push8_draws (v : Byte) : (s.push8 v).draws = s.draws := by simp [State.push8]
@[simp] theorem State.push8_cycles (v : Byte) : (s.push8 v).cycles = s.cycles := by simp [State.push8]
@[simp] theorem State.push8_sp (v : Byte) : (s.push8 v).sp = s.sp - 1 := by simp [State.push8]
@[simp] theorem State.push8_mem (v : Byte) : (s.push8 v).mem = (s.memWrite (stackAddr s.sp) v).mem := rfl
@[simp] theorem State.push8_loc (v : Byte) (l : Addr) : (s.push8 v).loc l = s.loc l := by simp [State.push8]
@[simp] theorem State.push8_kind (v : Byte) (l : Addr) : (s.push8 v).kind l = s.kind l := by simp [State.push8]
@[simp] theorem State.pushFrame_a (b : Bool) : (s.pushFrame b).a = s.a := by simp [State.pushFrame]
@[simp] theorem State.pushFrame_x (b : Bool) : (s.pushFrame b).x = s.x := by simp [State.pushFrame]
@[simp] theorem State.pushFrame_y (b : Bool) : (s.pushFrame b).y = s.y := by simp [State.pushFrame]
@[simp] theorem State.pushFrame_pc (b : Bool) : (s.pushFrame b).pc = s.pc := by simp [State.pushFrame]
@[simp] theorem State.pushFrame_p (b : Bool) : (s.pushFrame b).p = s.p := by simp [State.pushFrame]
@[simp] theorem State.pushFrame_irqLine (b : Bool) : (s.pushFrame b).irqLine = s.irqLine := by simp [State.pushFrame]
@[simp] theorem State.pushFrame_nmiPending (b : Bool) : (s.pushFrame b).nmiPending = s.nmiPending := by simp [State.pushFrame]
@[simp] theorem State.pushFrame_rdy (b : Bool) : (s.pushFrame b).rdy = s.rdy := by simp [State.pushFrame]
@[simp] theorem State.pushFrame_res (b : Bool) : (s.pushFrame b).res = s.res := by simp [State.pushFrame]
@[simp] theorem State.pushFrame_nmiLine (b : Bool) : (s.pushFrame b).nmiLine = s.nmiLine := by simp [State.pushFrame]
@[simp] theorem State.pushFrame_soLine (b : Bool) : (s.pushFrame b).soLine = s.soLine := by simp [State.pushFrame]
@[simp] theorem State.pushFrame_resetDue (b : Bool) : (s.pushFrame b).resetDue = s.resetDue := by simp [State.pushFrame]
@[simp] theorem State.pushFrame_platform (b : Bool) : (s.pushFrame b).platform = s.platform := by simp [State.pushFrame]
@[simp] theorem State.pushFrame_boundary (b : Bool) : (s.pushFrame b).boundary = s.boundary := by simp [State.pushFrame]
@[simp] theorem State.pushFrame_schedule (b : Bool) : (s.pushFrame b).schedule = s.schedule := by simp [State.pushFrame]
@[simp] theorem State.pushFrame_during (b : Bool) : (s.pushFrame b).during = s.during := by simp [State.pushFrame]
@[simp] theorem State.pushFrame_replaced (b : Bool) : (s.pushFrame b).replaced = s.replaced := by simp [State.pushFrame]
@[simp] theorem State.pushFrame_draws (b : Bool) : (s.pushFrame b).draws = s.draws := by simp [State.pushFrame]
@[simp] theorem State.pushFrame_cycles (b : Bool) : (s.pushFrame b).cycles = s.cycles := by simp [State.pushFrame]
@[simp] theorem State.pushFrame_sp (b : Bool) : (s.pushFrame b).sp = s.sp - 3 := by
  simp only [State.pushFrame, State.push8_sp]; bv_omega
@[simp] theorem State.pushFrame_loc (b : Bool) (l : Addr) : (s.pushFrame b).loc l = s.loc l := by simp [State.pushFrame]
@[simp] theorem State.pushFrame_kind (b : Bool) (l : Addr) : (s.pushFrame b).kind l = s.kind l := by simp [State.pushFrame]

end Sys2Proof.Machine
end

