-- ==== Sys2Proof/Laws/Ops.lean ====
section
/-! SUPPORT. For each shared operation, what it can do, said once. -/

namespace Sys2Proof.Machine

/-! Bytes and addresses -/

theorem joinBytes_toNat (hi lo : Byte) : (joinBytes hi lo).toNat = hi.toNat * 256 + lo.toNat := by
  simp only [joinBytes, BitVec.toNat_append]
  rw [← Nat.shiftLeft_add_eq_or_of_lt lo.isLt, Nat.shiftLeft_eq]

@[simp] theorem loByte_joinBytes (hi lo : Byte) : loByte (joinBytes hi lo) = lo := by
  apply BitVec.eq_of_toNat_eq
  have := lo.isLt
  simp only [loByte, BitVec.extractLsb'_toNat, joinBytes_toNat, Nat.shiftRight_zero]
  omega

@[simp] theorem hiByte_joinBytes (hi lo : Byte) : hiByte (joinBytes hi lo) = hi := by
  apply BitVec.eq_of_toNat_eq
  have := lo.isLt
  have := hi.isLt
  simp only [hiByte, BitVec.extractLsb'_toNat, joinBytes_toNat, Nat.shiftRight_eq_div_pow]
  omega

@[simp] theorem joinBytes_hiByte_loByte (w : Addr) : joinBytes (hiByte w) (loByte w) = w := by
  apply BitVec.eq_of_toNat_eq
  have := w.isLt
  simp only [joinBytes_toNat, hiByte, loByte, BitVec.extractLsb'_toNat, Nat.shiftRight_eq_div_pow]
  omega

/-! Locations, reads and writes -/

theorem two_pow_addrBits_pos (d : Device) : 0 < 2 ^ addrBits d := Nat.two_pow_pos _

theorem State.loc_lt (s : State) (a : Addr) : s.loc a < 2 ^ addrBits s.platform.dev :=
  Nat.mod_lt _ (two_pow_addrBits_pos _)

/-- Every device brings out at least twelve address lines and at most sixteen. -/
theorem addrBits_bounds (d : Device) : 12 ≤ addrBits d ∧ addrBits d ≤ 16 := by cases d <;> decide

theorem stackAddr_toNat (sp : Byte) : (stackAddr sp).toNat = 256 + sp.toNat := by
  simp [stackAddr, joinBytes_toNat]

/-- Page one is seen whole on every device (20_memory.md R51): a stack address is its own location. -/
@[simp] theorem State.loc_stackAddr (s : State) (sp : Byte) : s.loc (stackAddr sp) = 256 + sp.toNat := by
  have := sp.isLt
  have h := addrBits_bounds s.platform.dev
  have : 2 ^ 12 ≤ 2 ^ addrBits s.platform.dev := Nat.pow_le_pow_right (by decide) h.1
  rw [State.loc, stackAddr_toNat, Nat.mod_eq_of_lt (by omega)]

theorem State.seenAt_of_nil (s : State) (k : Slot) (a : Addr) (hr : s.replaced = []) : s.seenAt k a = s.byteAt a := by
  simp [State.seenAt, hr]

/-- A read of RAM finds what stands there, where no DMA write falls inside the step. -/
theorem State.memRead_ram (s : State) (k : Slot) (a : Addr) (h : s.kind a = .ram) (hr : s.replaced = []) :
    s.memRead k a = s.byteAt a := by
  simp [State.memRead, h, State.seenAt_of_nil s k a hr]

theorem State.memRead_rom (s : State) (k : Slot) (a : Addr) (h : s.kind a = .rom) : s.memRead k a = s.byteAt a := by
  simp [State.memRead, h]

/-- What a write leaves at each address: the byte written, where the address reaches the same location and RAM
answers there, and what stood there elsewhere. -/
theorem State.memWrite_byteAt (s : State) (a : Addr) (v : Byte) (b : Addr) :
    (s.memWrite a v).byteAt b = if s.kind a = .ram ∧ s.loc b = s.loc a then v else s.byteAt b := by
  unfold State.memWrite
  split <;> rename_i h <;> simp [h, State.byteAt, Memory.read_write]

theorem State.memWrite_mem (s : State) (a : Addr) (v : Byte) :
    (s.memWrite a v).mem = if s.kind a = .ram then Memory.write s.mem (s.loc a) v else s.mem := by
  unfold State.memWrite
  split <;> rename_i h <;> simp [h]

/-- A write leaves everything but memory. -/
theorem State.memWrite_eq (s : State) (a : Addr) (v : Byte) : s.memWrite a v = s.withMem (s.memWrite a v).mem := by
  unfold State.memWrite
  split <;> rfl

/-- A write keeps memory canonical and within the device's space. -/
theorem State.memWrite_memoryOk (s : State) (a : Addr) (v : Byte) (h : s.memoryOk) : (s.memWrite a v).memoryOk := by
  refine ⟨?_, ?_⟩
  · rw [State.memWrite_mem]; split
    · exact Memory.wf_write _ _ _ h.1
    · exact h.1
  · intro c hc
    rw [State.memWrite_mem] at hc
    rw [State.memWrite_platform]
    split at hc
    · rcases Memory.mem_write _ _ _ _ hc with rfl | hc
      · exact s.loc_lt a
      · exact h.2 c hc
    · exact h.2 c hc

/-! The stack -/

theorem State.push8_byteAt (s : State) (v : Byte) (b : Addr) :
    (s.push8 v).byteAt b =
      if s.kind (stackAddr s.sp) = .ram ∧ s.loc b = 256 + s.sp.toNat then v else s.byteAt b := by
  rw [State.push8, State.withSp_byteAt, State.memWrite_byteAt, State.loc_stackAddr]

theorem State.push8_memoryOk (s : State) (v : Byte) (h : s.memoryOk) : (s.push8 v).memoryOk :=
  State.memWrite_memoryOk s _ v h

theorem State.pushFrame_memoryOk (s : State) (b : Bool) (h : s.memoryOk) : (s.pushFrame b).memoryOk :=
  State.push8_memoryOk _ _ (State.push8_memoryOk _ _ (State.push8_memoryOk _ _ h))

/-! Taking an interrupt and returning from one -/

/-- What `interruptEntry` leaves, where no NMI edge redirects it (60_exceptions.md R230). -/
theorem interruptEntry_eq (vector : Addr) (b : Bool) (s : State) (h : s.nmiRedirects vector = false) :
    interruptEntry vector b s =
      { s.pushFrame b with
        p := { s.p with i := true }
        pc := ((s.pushFrame b).withP { s.p with i := true }).vectorAt vector } := by
  unfold interruptEntry
  rw [if_neg (by simp [h])]
  simp [State.withP, State.withPc]

/-- Where an NMI edge redirects it, the NMI vector is used and the edge is served (60_exceptions.md R239). -/
theorem interruptEntry_redirected (vector : Addr) (b : Bool) (s : State) (h : s.nmiRedirects vector = true) :
    interruptEntry vector b s =
      { s.pushFrame b with
        p := { s.p with i := true }
        pc := ((s.pushFrame b).withP { s.p with i := true }).vectorAt nmiVector
        nmiLine := false
        nmiPending := false
        during := { s.during with nmiFalls := false } } := by
  unfold interruptEntry
  rw [if_pos h]
  simp [State.withP, State.withPc, State.nmiServed]

/-- With no NMI edge inside the step nothing is redirected. -/
@[simp] theorem State.nmiRedirects_none (s : State) (vector : Addr) (h : s.during = During.none) :
    s.nmiRedirects vector = false := by
  simp [State.nmiRedirects, h, During.none]

/-- What a return from interrupt leaves (45_stack_flag_system.md R213). -/
theorem returnFromInterrupt_eq (s : State) :
    returnFromInterrupt s =
      { s with
        p := flagsOf (s.pulled .pull1 1)
        pc := joinBytes (s.pulled .pull3 3) (s.pulled .pull2 2)
        sp := s.sp + 3 } := rfl

/-! What each shared meaning answers -/

theorem done_next (s t : State) : done s = .next t ↔ t = { s with boundary := .ordinary, draws := s.draws + 1 } := by
  simp [done, State.finish, eq_comm]

theorem loadA_next (n : Nat) (m : Byte) (s : State) :
    loadA n m s = .next
      { s with
        a := m, p := s.p.setNZ m, pc := s.pc + BitVec.ofNat 16 n
        boundary := .ordinary, draws := s.draws + 1 } := rfl

theorem loadX_next (n : Nat) (m : Byte) (s : State) :
    loadX n m s = .next
      { s with
        x := m, p := s.p.setNZ m, pc := s.pc + BitVec.ofNat 16 n
        boundary := .ordinary, draws := s.draws + 1 } := rfl

theorem loadY_next (n : Nat) (m : Byte) (s : State) :
    loadY n m s = .next
      { s with
        y := m, p := s.p.setNZ m, pc := s.pc + BitVec.ofNat 16 n
        boundary := .ordinary, draws := s.draws + 1 } := rfl

theorem store_next (n : Nat) (ea : Addr) (v : Byte) (s : State) :
    store n ea v s = .next
      { s with
        mem := (s.memWrite ea v).mem, pc := s.pc + BitVec.ofNat 16 n
        boundary := .ordinary, draws := s.draws + 1 } := by
  rw [store, State.memWrite_eq]; rfl

theorem addWithCarry_binary (n : Nat) (m : Byte) (s : State) (h : s.p.d = false) :
    addWithCarry n m s = done ((binaryResult (addBinary s.a m s.p.c) s).advance n) := by simp [addWithCarry, h]

theorem addWithCarry_decimal (n : Nat) (m : Byte) (s : State) (h : s.p.d = true) :
    addWithCarry n m s =
      done ((decimalResult (validBcd s.a && validBcd m) (addDecimal s.a m s.p.c) s).advance n) := by
  simp [addWithCarry, h]

theorem subWithBorrow_binary (n : Nat) (m : Byte) (s : State) (h : s.p.d = false) :
    subWithBorrow n m s = done ((binaryResult (addBinary s.a (m ^^^ 0xFF) s.p.c) s).advance n) := by
  simp [subWithBorrow, h]

theorem subWithBorrow_decimal (n : Nat) (m : Byte) (s : State) (h : s.p.d = true) :
    subWithBorrow n m s =
      done ((decimalResult (validBcd s.a && validBcd m) (subDecimal s.a m s.p.c) s).advance n) := by
  simp [subWithBorrow, h]

theorem logicA_next (n : Nat) (r : Byte) (s : State) :
    logicA n r s = .next
      { s with
        a := r, p := s.p.setNZ r, pc := s.pc + BitVec.ofNat 16 n
        boundary := .ordinary, draws := s.draws + 1 } := rfl

theorem bitTest_next (n : Nat) (m : Byte) (s : State) :
    bitTest n m s = .next
      { s with
        p := { s.p with z := s.a &&& m == 0x00, n := m.getLsbD 7, v := m.getLsbD 6 }
        pc := s.pc + BitVec.ofNat 16 n, boundary := .ordinary, draws := s.draws + 1 } := rfl

theorem compare_next (reg : Byte) (n : Nat) (m : Byte) (s : State) :
    compare reg n m s = .next
      { s with
        p := s.p.setNZC (addBinary reg (m ^^^ 0xFF) true).r (addBinary reg (m ^^^ 0xFF) true).cout
        pc := s.pc + BitVec.ofNat 16 n, boundary := .ordinary, draws := s.draws + 1 } := rfl

theorem shiftA_next (f : Byte → Byte × Bool) (s : State) :
    shiftA f s = .next
      { s with
        a := (f s.a).1, p := s.p.setNZC (f s.a).1 (f s.a).2, pc := s.pc + 1
        boundary := .ordinary, draws := s.draws + 1 } := rfl

theorem shiftMem_next (n : Nat) (ea : Addr) (f : Byte → Byte × Bool) (s : State) :
    shiftMem n ea f s = .next
      { s with
        mem := (s.memWrite ea (f (s.operand ea)).1).mem
        p := s.p.setNZC (f (s.operand ea)).1 (f (s.operand ea)).2, pc := s.pc + BitVec.ofNat 16 n
        boundary := .ordinary, draws := s.draws + 1 } := by
  simp only [shiftMem]; rw [State.memWrite_eq]; rfl

theorem stepMem_next (n : Nat) (ea : Addr) (delta : Byte) (s : State) :
    stepMem n ea delta s = .next
      { s with
        mem := (s.memWrite ea (s.operand ea + delta)).mem
        p := s.p.setNZ (s.operand ea + delta), pc := s.pc + BitVec.ofNat 16 n
        boundary := .ordinary, draws := s.draws + 1 } := by
  simp only [stepMem]; rw [State.memWrite_eq]; rfl

theorem indexX_next (r : Byte) (s : State) :
    indexX r s = .next
      { s with x := r, p := s.p.setNZ r, pc := s.pc + 1, boundary := .ordinary, draws := s.draws + 1 } := rfl

theorem indexY_next (r : Byte) (s : State) :
    indexY r s = .next
      { s with y := r, p := s.p.setNZ r, pc := s.pc + 1, boundary := .ordinary, draws := s.draws + 1 } := rfl

theorem branch_next (cond : Bool) (r : Byte) (s : State) :
    branch cond r s = .next
      { s with
        pc := if cond then branchTarget s r else s.pc + 2, boundary := .ordinary, draws := s.draws + 1 } := by
  cases cond <;> rfl

theorem maskChanged_next (before after : State) :
    maskChanged before after =
      .next { after with boundary := .afterMaskChange before.p.i, draws := after.draws + 1 } := rfl

/-! Fetching -/

/-- The decoder refuses the bytes fetched at `PC` only for an undefined op code (30_encoding.md R83, R86). -/
theorem fetchInstr_error (s : State) (op : Byte) (h : fetchInstr s = .error op) :
    op = s.memRead .opcode s.pc ∧ formOf op = none := by
  unfold fetchInstr fetchBytes opcodeLength at h
  cases hf : formOf (s.memRead .opcode s.pc) with
  | none =>
    simp only [hf, decode] at h
    cases h
    exact ⟨rfl, hf⟩
  | some f => cases f <;> simp [hf, decode] at h

/-! The ends of a CPU step -/

/-- With no edge inside the step its end changes nothing else. -/
theorem settle_none (w : Bool) (before after : State) (hb : before.during = During.none)
    (ha : after.during = During.none) (hr : after.replaced = []) : settle w before after = after := by
  obtain ⟨⟩ := after
  simp_all [settle, resInside, soInside, nmiInside, During.none]

/-- An NMI edge inside the step changes the pin and the latch only. -/
theorem nmiInside_eq (before after : State) :
    nmiInside before after =
      { after with
        nmiLine := (nmiInside before after).nmiLine
        nmiPending := (nmiInside before after).nmiPending } := by
  unfold nmiInside setNmi
  split_ifs <;> rfl

/-- An SO edge inside the step changes the pin and the flags only. -/
theorem soInside_eq (w : Bool) (before after : State) :
    soInside w before after =
      { after with soLine := (soInside w before after).soLine, p := (soInside w before after).p } := by
  unfold soInside setSo
  split_ifs <;> rfl

/-- RES falling inside the step changes RES, the due reset and memory only. -/
theorem resInside_eq (before after : State) :
    resInside before after =
      { after with
        res := (resInside before after).res
        resetDue := (resInside before after).resetDue
        mem := (resInside before after).mem } := by
  unfold resInside setRes
  split_ifs <;> rfl

/-- The end of a step leaves every register but the flags, and every pin but those with an edge inside. -/
theorem settle_eq (w : Bool) (before after : State) :
    settle w before after =
      { after with
        nmiLine := (nmiInside before after).nmiLine
        nmiPending := (nmiInside before after).nmiPending
        soLine := (settle w before after).soLine
        p := (settle w before after).p
        res := (settle w before after).res
        resetDue := (settle w before after).resetDue
        mem := (settle w before after).mem
        during := During.none
        replaced := [] } := by
  unfold settle
  rw [resInside_eq, soInside_eq, nmiInside_eq]

/-! What the end of a step leaves in each field that no edge inside it can change, and in the NMI latch -/

@[simp] theorem settle_a (w : Bool) (before after : State) : (settle w before after).a = after.a := by
  rw [settle_eq]

@[simp] theorem settle_x (w : Bool) (before after : State) : (settle w before after).x = after.x := by
  rw [settle_eq]

@[simp] theorem settle_y (w : Bool) (before after : State) : (settle w before after).y = after.y := by
  rw [settle_eq]

@[simp] theorem settle_sp (w : Bool) (before after : State) : (settle w before after).sp = after.sp := by
  rw [settle_eq]

@[simp] theorem settle_pc (w : Bool) (before after : State) : (settle w before after).pc = after.pc := by
  rw [settle_eq]

@[simp] theorem settle_irqLine (w : Bool) (before after : State) : (settle w before after).irqLine = after.irqLine := by
  rw [settle_eq]

@[simp] theorem settle_rdy (w : Bool) (before after : State) : (settle w before after).rdy = after.rdy := by
  rw [settle_eq]

@[simp] theorem settle_platform (w : Bool) (before after : State) : (settle w before after).platform = after.platform := by
  rw [settle_eq]

@[simp] theorem settle_boundary (w : Bool) (before after : State) : (settle w before after).boundary = after.boundary := by
  rw [settle_eq]

@[simp] theorem settle_schedule (w : Bool) (before after : State) : (settle w before after).schedule = after.schedule := by
  rw [settle_eq]

@[simp] theorem settle_draws (w : Bool) (before after : State) : (settle w before after).draws = after.draws := by
  rw [settle_eq]

@[simp] theorem settle_cycles (w : Bool) (before after : State) : (settle w before after).cycles = after.cycles := by
  rw [settle_eq]

@[simp] theorem settle_nmiLine (w : Bool) (before after : State) :
    (settle w before after).nmiLine = (nmiInside before after).nmiLine := by
  rw [settle_eq]

@[simp] theorem settle_nmiPending (w : Bool) (before after : State) :
    (settle w before after).nmiPending = (nmiInside before after).nmiPending := by
  rw [settle_eq]

/-- No edge inside a step changes `I` (60_exceptions.md R227). -/
@[simp] theorem settle_i (w : Bool) (before after : State) : (settle w before after).p.i = after.p.i := by
  have h : (soInside w before (nmiInside before after)).p.i = after.p.i := by
    unfold soInside setSo
    rw [nmiInside_eq]
    split_ifs <;> rfl
  unfold settle
  rw [resInside_eq]
  exact h

/-- Only the rising edge of RES makes a reset due, and it is an environment step (70_reset_and_hazards.md R260). -/
@[simp] theorem settle_resetDue (w : Bool) (before after : State) :
    (settle w before after).resetDue = after.resetDue := by
  unfold settle resInside setRes
  rw [soInside_eq, nmiInside_eq]
  split_ifs <;> simp

/-- Inside the reset sequence an NMI edge leaves no request (70_reset_and_hazards.md R260, decision D18). -/
theorem nmiInside_reset (before after : State) (h : chooseAct before = .resetSequence) :
    (nmiInside before after).nmiPending = after.nmiPending := by
  unfold nmiInside
  rw [if_pos h]
  split_ifs <;> rfl

/-- Inside any other step an NMI edge is latched on a device with NMI, where a redirected sequence has not served it
(60_exceptions.md R228, R239). -/
theorem nmiInside_latches (before after : State) (h : chooseAct before ≠ .resetSequence)
    (hn : hasNmi after.platform.dev = true) (he : after.during.nmiFalls = true) (hl : after.nmiLine = true) :
    (nmiInside before after).nmiPending = true ∧ (nmiInside before after).nmiLine = false := by
  simp [nmiInside, setNmi, h, hn, he, hl]

/-- On a device with NMI the pin is low after an NMI edge inside a step. -/
theorem nmiInside_line (before after : State) (hn : hasNmi after.platform.dev = true)
    (h : after.during.nmiFalls = true ∨ after.nmiLine = false) : (nmiInside before after).nmiLine = false := by
  unfold nmiInside setNmi
  rcases h with h | h <;> split_ifs <;> simp_all

/-- A mixed memory is canonical and within the device's space when both memories are. -/
theorem Memory.mix_bound (choose : Nat → Bool) (old new : Memory) (bound : Nat) (ho : ∀ c ∈ old, c.1 < bound)
    (hn : ∀ c ∈ new, c.1 < bound) : ∀ c ∈ Memory.mix choose old new, c.1 < bound := by
  refine Memory.mix_induction (P := fun m => ∀ c ∈ m, c.1 < bound) choose old new hn fun m loc hloc hm c hc => ?_
  rcases Memory.mem_write _ _ _ _ hc with rfl | hc
  · rcases hloc with h | h
    · obtain ⟨d, hd, rfl⟩ := List.mem_map.1 h
      exact ho d hd
    · obtain ⟨d, hd, rfl⟩ := List.mem_map.1 h
      exact hn d hd
  · exact hm c hc

/-- The memory after reset is canonical and within its space. -/
theorem State.reset_memoryOk : State.reset.memoryOk := by decide

/-- Placing bytes keeps memory canonical and within the device's space. -/
theorem placeBytes_memoryOk (bs : List Byte) (a : Addr) (s : State) (h : s.memoryOk) : (placeBytes bs a s).memoryOk := by
  induction bs generalizing a s with
  | nil => exact h
  | cons b bs ih =>
    refine ih _ _ ⟨Memory.wf_write _ _ _ h.1, fun c hc => ?_⟩
    rcases Memory.mem_write _ _ _ _ hc with rfl | hc
    · exact s.loc_lt a
    · exact h.2 c hc

/-- A DMA write keeps memory canonical and within the device's space. -/
theorem dmaWrite_memoryOk (a : Addr) (v : Byte) (s : State) (h : s.memoryOk) : (dmaWrite a v s).memoryOk := by
  unfold dmaWrite
  split
  · exact h
  · exact State.memWrite_memoryOk s a v h

/-! DMA writes inside a step (20_memory.md R62) -/

theorem dmaInOrder_nil (dev : Device) : dmaInOrder dev [] = [] := by
  unfold dmaInOrder
  split <;> simp

/-- Without DMA writes and edges a step works in the state it starts from. -/
theorem beginStep_nil (s : State) (hd : s.during = During.none) (hr : s.replaced = []) :
    beginStep During.none [] s = s := by
  unfold beginStep
  rw [dmaInOrder_nil]
  cases s
  simp only at hd hr
  subst hd hr
  rfl

theorem dmaAfterWrites_nil (s : State) : dmaAfterWrites [] s = s := by
  unfold dmaAfterWrites
  rw [dmaInOrder_nil]
  rfl

/-- A DMA write inside a step changes memory and the note of what it replaced. -/
theorem dmaInside_eq (s : State) (e : DmaWrite) :
    dmaInside s e = { s with mem := (s.memWrite e.a e.v).mem, replaced := (dmaInside s e).replaced } := by
  unfold dmaInside State.memWrite
  split <;> rename_i h <;> simp [h, State.withMem]

theorem dmaInside_memoryOk (s : State) (e : DmaWrite) (h : s.memoryOk) : (dmaInside s e).memoryOk := by
  rw [dmaInside_eq]
  have k := State.memWrite_memoryOk s e.a e.v h
  exact ⟨k.1, by simpa using k.2⟩

/-- What DMA writes inside a step leave at its start: everything but memory, the edges and the notes is as before. -/
theorem beginStep_eq (d : During) (dma : List DmaWrite) (s : State) :
    beginStep d dma s =
      { s with mem := (beginStep d dma s).mem, during := d, replaced := (beginStep d dma s).replaced } := by
  have key : ∀ (l : List DmaWrite) (t : State),
      l.foldl dmaInside t = { t with mem := (l.foldl dmaInside t).mem, replaced := (l.foldl dmaInside t).replaced } := by
    intro l
    induction l with
    | nil => intro t; rfl
    | cons e l ih =>
      intro t
      rw [List.foldl_cons, ih (dmaInside t e)]
      rw [dmaInside_eq]
  unfold beginStep
  rw [key]

theorem beginStep_memoryOk (d : During) (dma : List DmaWrite) (s : State) (h : s.memoryOk) :
    (beginStep d dma s).memoryOk := by
  have key : ∀ (l : List DmaWrite) (t : State), t.memoryOk → (l.foldl dmaInside t).memoryOk := by
    intro l
    induction l with
    | nil => intro t ht; exact ht
    | cons e l ih => intro t ht; exact ih _ (dmaInside_memoryOk t e ht)
  exact key _ _ h

/-- The DMA writes made again at the end of a step change memory only. -/
theorem dmaAfterWrites_eq (dma : List DmaWrite) (s : State) :
    dmaAfterWrites dma s = { s with mem := (dmaAfterWrites dma s).mem } := by
  have key : ∀ (l : List DmaWrite) (t : State),
      l.foldl (fun t e => t.memWrite e.a e.v) t =
        { t with mem := (l.foldl (fun t e => t.memWrite e.a e.v) t).mem } := by
    intro l
    induction l with
    | nil => intro t; rfl
    | cons e l ih =>
      intro t
      rw [List.foldl_cons, ih (t.memWrite e.a e.v)]
      rw [State.memWrite_eq]
      simp [State.withMem]
  exact key _ _

theorem dmaAfterWrites_memoryOk (dma : List DmaWrite) (s : State) (h : s.memoryOk) :
    (dmaAfterWrites dma s).memoryOk := by
  have key : ∀ (l : List DmaWrite) (t : State), t.memoryOk →
      (l.foldl (fun t e => t.memWrite e.a e.v) t).memoryOk := by
    intro l
    induction l with
    | nil => intro t ht; exact ht
    | cons e l ih => intro t ht; exact ih _ (State.memWrite_memoryOk t e.a e.v ht)
  exact key _ _ h

/-! The step of a CPU that moves alone -/

/-- With no turn waiting and no edge inside the step, the step is the CPU's act and its end. -/
theorem step_alone (s : State) (hs : s.schedule = []) (hd : s.during = During.none) (hr : s.replaced = []) :
    step s =
      match act s with
      | .next t => .next (settle (actWritesV s) s t)
      | .fault r => .fault r
      | .refused r => .refused r := by
  have h : ∀ t, dmaAfterWrites [] t = t := dmaAfterWrites_nil
  unfold step turn
  rw [hs]
  cases k : act s <;> simp only [cpuStep, beginStep_nil s hd hr, h, k]

/-- The choice of the CPU, from the pins and the pending requests. -/
theorem chooseAct_eq (s : State) :
    chooseAct s =
      if !s.res then .idle
      else if s.resetDue then .resetSequence
      else if !s.rdy then .idle
      else if takesNmi s then .nmiSequence
      else if takesIrq s then .irqSequence
      else .instruction := rfl

/-! The end of a run -/

/-- A read of an address at which memory answers draws nothing. -/
theorem State.memRead_steady (s : State) (k : Slot) (a : Addr) (b : Boundary) (n m : Nat) (h : s.steady a = true) :
    State.memRead { s with boundary := b, draws := n, cycles := m } k a = s.memRead k a := by
  unfold State.steady at h
  unfold State.memRead
  have e : State.kind { s with boundary := b, draws := n, cycles := m } a = s.kind a := rfl
  rw [e]
  cases k : s.kind a <;> simp_all [State.seenAt, State.byteAt, State.loc]

/-- A later fetch from memory alone finds the same instruction. -/
theorem fetchBytes_steady (s : State) (b : Boundary) (n m : Nat)
    (h : ∀ k < (fetchBytes s).length, s.steady (s.pc + BitVec.ofNat 16 k) = true) :
    fetchBytes { s with boundary := b, draws := n, cycles := m } = fetchBytes s := by
  have h0 : s.steady s.pc = true := by
    have := h 0 (by unfold fetchBytes; dsimp only; split <;> simp)
    simpa using this
  unfold fetchBytes at h ⊢
  dsimp only at h ⊢
  rw [State.memRead_steady s _ _ b n m h0]
  split <;> rename_i hl <;> simp only [hl] at h
  · have h1 : s.steady (s.pc + 1) = true := h 1 (by simp)
    rw [State.memRead_steady s _ _ b n m h1]
  · have h1 : s.steady (s.pc + 1) = true := h 1 (by simp)
    have h2 : s.steady (s.pc + 2) = true := h 2 (by simp)
    rw [State.memRead_steady s _ _ b n m h1, State.memRead_steady s _ _ b n m h2]
  · rfl

theorem State.readsMemoryOnly_bytes (s : State) (i : Instr) (h : s.readsMemoryOnly i = true) :
    ∀ k < (fetchBytes s).length, s.steady (s.pc + BitVec.ofNat 16 k) = true := by
  simp only [State.readsMemoryOnly, Bool.and_eq_true, List.all_eq_true, List.mem_range] at h
  exact h.1

/-- An instruction that jumps to itself does so again, where what it reads stands in memory. -/
theorem jump_again (s t : State) (i : Instr) (b : Boundary) (n m : Nat) (hj : jumpMnemonics.contains i.mnemonic = true)
    (hm : s.readsMemoryOnly i = true) (h : exec i s = .next t) (hp : t.pc = s.pc) :
    t = { s with boundary := .ordinary, draws := s.draws + 1 } ∧
      ∃ u, exec i { s with boundary := b, draws := n, cycles := m } = .next u ∧ u.pc = s.pc := by
  have branches : ∀ (cond : Bool) (r : Byte), branch cond r s = .next t →
      t = { s with boundary := .ordinary, draws := s.draws + 1 } ∧
        ∃ u, branch cond r { s with boundary := b, draws := n, cycles := m } = .next u ∧ u.pc = s.pc := by
    intro cond r h
    rw [branch_next] at h
    injection h with h
    subst h
    rw [branch_next]
    dsimp only at hp ⊢
    exact ⟨by rw [hp], _, rfl, hp⟩
  cases i
  all_goals first
    | (exfalso; revert hj; simp only [Instr.mnemonic]; decide)
    | exact branches _ _ h
    | skip
  case jmpAbs w =>
    injection h with h
    subst h
    exact ⟨by simp [State.finish, State.withPc] at hp ⊢; rw [hp], _, rfl, hp⟩
  case jmpInd w =>
    injection h with h
    subst h
    simp only [State.readsMemoryOnly, Bool.and_eq_true] at hm
    obtain ⟨-, h1, h2⟩ := hm
    have e : indirectTarget { s with boundary := b, draws := n, cycles := m } w = indirectTarget s w := by
      unfold indirectTarget
      rw [State.memRead_steady s _ _ b n m h1, State.memRead_steady s _ _ b n m h2]
    refine ⟨by simp [State.finish, State.withPc] at hp ⊢; rw [hp], _, rfl, ?_⟩
    exact e.trans hp

/-- A run that has ended stays where it is: the CPU executes the same instruction again, and the state after it has
ended too (00_scope.md R12, decision D25). -/
theorem selfLoop_step (s : State) (h : selfLoop s = true) (hd : s.during = During.none) (hr : s.replaced = []) :
    ∃ t, step s = .next t ∧ t.pc = s.pc ∧ selfLoop t = true := by
  simp only [selfLoop, Bool.and_eq_true, Bool.not_eq_true', List.isEmpty_iff] at h
  obtain ⟨⟨⟨⟨⟨⟨hs, h1⟩, h2⟩, h3⟩, h4⟩, h5⟩, h6⟩ := h
  cases hf : fetchInstr s with
  | error op => simp [hf] at h6
  | ok i =>
    simp only [hf, Bool.and_eq_true] at h6
    obtain ⟨⟨hj, hm⟩, h6⟩ := h6
    cases he : exec i s with
    | fault r => simp [he] at h6
    | refused r => simp [he] at h6
    | next t =>
      simp only [he, decide_eq_true_eq] at h6
      have hc : chooseAct s = .instruction := by
        unfold State.irqPossible at h5
        cases hb : s.boundary <;> simp_all [chooseAct, takesNmi, takesIrq]
      obtain ⟨ht, u, hu, hup⟩ := jump_again s t i .ordinary (s.draws + 1) (s.cycles + cyclesOf i s) hj hm he h6
      refine ⟨{ s with boundary := .ordinary, draws := s.draws + 1, cycles := s.cycles + cyclesOf i s }, ?_, rfl, ?_⟩
      · rw [step_alone s hs hd hr, act, hc]
        simp only [instructionStep, hf, runInstr, he, ht]
        exact congrArg _ (settle_none _ _ _ hd hd hr)
      · have hb := fetchBytes_steady s .ordinary (s.draws + 1) (s.cycles + cyclesOf i s)
          (State.readsMemoryOnly_bytes s i hm)
        have hf' : fetchInstr { s with boundary := .ordinary, draws := s.draws + 1, cycles := s.cycles + cyclesOf i s } =
            .ok i := by
          unfold fetchInstr at hf ⊢
          rw [hb]
          revert hf
          cases decode (fetchBytes s) <;> simp
        have hm' : State.readsMemoryOnly
            { s with boundary := .ordinary, draws := s.draws + 1, cycles := s.cycles + cyclesOf i s } i = true := by
          unfold State.readsMemoryOnly
          rw [hb]
          exact hm
        unfold State.irqPossible at h5
        unfold selfLoop State.irqPossible
        rw [hf']
        dsimp only
        rw [hu, hm', hj, hs, h1, h2, h3, h4]
        cases hq : s.irqLine <;> cases hi : s.p.i <;> cases hb : s.boundary <;> simp_all

end Sys2Proof.Machine
end

