-- ==== Sys2Proof/Laws/PerInstr.lean ====
section
/-! SUPPORT. The families of statements made for each instruction: an instruction is a defined form (30_encoding.md R85)
and its encoding has the length of its mode (R81). -/

namespace Sys2Proof.Laws.EncodedForm

/-- The instruction is well-formed and its bytes are as many as its mode has. -/
def Statement (i : Instr) : Prop := i.wellFormed = true ∧ (encode i).length = i.mode.length

theorem adcIndX (z : Byte) : Statement (.adcIndX z) := ⟨rfl, rfl⟩
theorem adcZp (z : Byte) : Statement (.adcZp z) := ⟨rfl, rfl⟩
theorem adcImm (m : Byte) : Statement (.adcImm m) := ⟨rfl, rfl⟩
theorem adcAbs (w : Addr) : Statement (.adcAbs w) := ⟨rfl, rfl⟩
theorem adcIndY (z : Byte) : Statement (.adcIndY z) := ⟨rfl, rfl⟩
theorem adcZpX (z : Byte) : Statement (.adcZpX z) := ⟨rfl, rfl⟩
theorem adcAbsY (w : Addr) : Statement (.adcAbsY w) := ⟨rfl, rfl⟩
theorem adcAbsX (w : Addr) : Statement (.adcAbsX w) := ⟨rfl, rfl⟩
theorem andIndX (z : Byte) : Statement (.andIndX z) := ⟨rfl, rfl⟩
theorem andZp (z : Byte) : Statement (.andZp z) := ⟨rfl, rfl⟩
theorem andImm (m : Byte) : Statement (.andImm m) := ⟨rfl, rfl⟩
theorem andAbs (w : Addr) : Statement (.andAbs w) := ⟨rfl, rfl⟩
theorem andIndY (z : Byte) : Statement (.andIndY z) := ⟨rfl, rfl⟩
theorem andZpX (z : Byte) : Statement (.andZpX z) := ⟨rfl, rfl⟩
theorem andAbsY (w : Addr) : Statement (.andAbsY w) := ⟨rfl, rfl⟩
theorem andAbsX (w : Addr) : Statement (.andAbsX w) := ⟨rfl, rfl⟩
theorem aslZp (z : Byte) : Statement (.aslZp z) := ⟨rfl, rfl⟩
theorem aslAcc : Statement (.aslAcc) := ⟨rfl, rfl⟩
theorem aslAbs (w : Addr) : Statement (.aslAbs w) := ⟨rfl, rfl⟩
theorem aslZpX (z : Byte) : Statement (.aslZpX z) := ⟨rfl, rfl⟩
theorem aslAbsX (w : Addr) : Statement (.aslAbsX w) := ⟨rfl, rfl⟩
theorem bcc (r : Byte) : Statement (.bcc r) := ⟨rfl, rfl⟩
theorem bcs (r : Byte) : Statement (.bcs r) := ⟨rfl, rfl⟩
theorem beq (r : Byte) : Statement (.beq r) := ⟨rfl, rfl⟩
theorem bitZp (z : Byte) : Statement (.bitZp z) := ⟨rfl, rfl⟩
theorem bitAbs (w : Addr) : Statement (.bitAbs w) := ⟨rfl, rfl⟩
theorem bmi (r : Byte) : Statement (.bmi r) := ⟨rfl, rfl⟩
theorem bne (r : Byte) : Statement (.bne r) := ⟨rfl, rfl⟩
theorem bpl (r : Byte) : Statement (.bpl r) := ⟨rfl, rfl⟩
theorem brk : Statement (.brk) := ⟨rfl, rfl⟩
theorem bvc (r : Byte) : Statement (.bvc r) := ⟨rfl, rfl⟩
theorem bvs (r : Byte) : Statement (.bvs r) := ⟨rfl, rfl⟩
theorem clc : Statement (.clc) := ⟨rfl, rfl⟩
theorem cld : Statement (.cld) := ⟨rfl, rfl⟩
theorem cli : Statement (.cli) := ⟨rfl, rfl⟩
theorem clv : Statement (.clv) := ⟨rfl, rfl⟩
theorem cmpIndX (z : Byte) : Statement (.cmpIndX z) := ⟨rfl, rfl⟩
theorem cmpZp (z : Byte) : Statement (.cmpZp z) := ⟨rfl, rfl⟩
theorem cmpImm (m : Byte) : Statement (.cmpImm m) := ⟨rfl, rfl⟩
theorem cmpAbs (w : Addr) : Statement (.cmpAbs w) := ⟨rfl, rfl⟩
theorem cmpIndY (z : Byte) : Statement (.cmpIndY z) := ⟨rfl, rfl⟩
theorem cmpZpX (z : Byte) : Statement (.cmpZpX z) := ⟨rfl, rfl⟩
theorem cmpAbsY (w : Addr) : Statement (.cmpAbsY w) := ⟨rfl, rfl⟩
theorem cmpAbsX (w : Addr) : Statement (.cmpAbsX w) := ⟨rfl, rfl⟩
theorem cpxImm (m : Byte) : Statement (.cpxImm m) := ⟨rfl, rfl⟩
theorem cpxZp (z : Byte) : Statement (.cpxZp z) := ⟨rfl, rfl⟩
theorem cpxAbs (w : Addr) : Statement (.cpxAbs w) := ⟨rfl, rfl⟩
theorem cpyImm (m : Byte) : Statement (.cpyImm m) := ⟨rfl, rfl⟩
theorem cpyZp (z : Byte) : Statement (.cpyZp z) := ⟨rfl, rfl⟩
theorem cpyAbs (w : Addr) : Statement (.cpyAbs w) := ⟨rfl, rfl⟩
theorem decZp (z : Byte) : Statement (.decZp z) := ⟨rfl, rfl⟩
theorem decAbs (w : Addr) : Statement (.decAbs w) := ⟨rfl, rfl⟩
theorem decZpX (z : Byte) : Statement (.decZpX z) := ⟨rfl, rfl⟩
theorem decAbsX (w : Addr) : Statement (.decAbsX w) := ⟨rfl, rfl⟩
theorem dex : Statement (.dex) := ⟨rfl, rfl⟩
theorem dey : Statement (.dey) := ⟨rfl, rfl⟩
theorem eorIndX (z : Byte) : Statement (.eorIndX z) := ⟨rfl, rfl⟩
theorem eorZp (z : Byte) : Statement (.eorZp z) := ⟨rfl, rfl⟩
theorem eorImm (m : Byte) : Statement (.eorImm m) := ⟨rfl, rfl⟩
theorem eorAbs (w : Addr) : Statement (.eorAbs w) := ⟨rfl, rfl⟩
theorem eorIndY (z : Byte) : Statement (.eorIndY z) := ⟨rfl, rfl⟩
theorem eorZpX (z : Byte) : Statement (.eorZpX z) := ⟨rfl, rfl⟩
theorem eorAbsY (w : Addr) : Statement (.eorAbsY w) := ⟨rfl, rfl⟩
theorem eorAbsX (w : Addr) : Statement (.eorAbsX w) := ⟨rfl, rfl⟩
theorem incZp (z : Byte) : Statement (.incZp z) := ⟨rfl, rfl⟩
theorem incAbs (w : Addr) : Statement (.incAbs w) := ⟨rfl, rfl⟩
theorem incZpX (z : Byte) : Statement (.incZpX z) := ⟨rfl, rfl⟩
theorem incAbsX (w : Addr) : Statement (.incAbsX w) := ⟨rfl, rfl⟩
theorem inx : Statement (.inx) := ⟨rfl, rfl⟩
theorem iny : Statement (.iny) := ⟨rfl, rfl⟩
theorem jmpAbs (w : Addr) : Statement (.jmpAbs w) := ⟨rfl, rfl⟩
theorem jmpInd (w : Addr) : Statement (.jmpInd w) := ⟨rfl, rfl⟩
theorem jsr (w : Addr) : Statement (.jsr w) := ⟨rfl, rfl⟩
theorem ldaIndX (z : Byte) : Statement (.ldaIndX z) := ⟨rfl, rfl⟩
theorem ldaZp (z : Byte) : Statement (.ldaZp z) := ⟨rfl, rfl⟩
theorem ldaImm (m : Byte) : Statement (.ldaImm m) := ⟨rfl, rfl⟩
theorem ldaAbs (w : Addr) : Statement (.ldaAbs w) := ⟨rfl, rfl⟩
theorem ldaIndY (z : Byte) : Statement (.ldaIndY z) := ⟨rfl, rfl⟩
theorem ldaZpX (z : Byte) : Statement (.ldaZpX z) := ⟨rfl, rfl⟩
theorem ldaAbsY (w : Addr) : Statement (.ldaAbsY w) := ⟨rfl, rfl⟩
theorem ldaAbsX (w : Addr) : Statement (.ldaAbsX w) := ⟨rfl, rfl⟩
theorem ldxImm (m : Byte) : Statement (.ldxImm m) := ⟨rfl, rfl⟩
theorem ldxZp (z : Byte) : Statement (.ldxZp z) := ⟨rfl, rfl⟩
theorem ldxAbs (w : Addr) : Statement (.ldxAbs w) := ⟨rfl, rfl⟩
theorem ldxZpY (z : Byte) : Statement (.ldxZpY z) := ⟨rfl, rfl⟩
theorem ldxAbsY (w : Addr) : Statement (.ldxAbsY w) := ⟨rfl, rfl⟩
theorem ldyImm (m : Byte) : Statement (.ldyImm m) := ⟨rfl, rfl⟩
theorem ldyZp (z : Byte) : Statement (.ldyZp z) := ⟨rfl, rfl⟩
theorem ldyAbs (w : Addr) : Statement (.ldyAbs w) := ⟨rfl, rfl⟩
theorem ldyZpX (z : Byte) : Statement (.ldyZpX z) := ⟨rfl, rfl⟩
theorem ldyAbsX (w : Addr) : Statement (.ldyAbsX w) := ⟨rfl, rfl⟩
theorem lsrZp (z : Byte) : Statement (.lsrZp z) := ⟨rfl, rfl⟩
theorem lsrAcc : Statement (.lsrAcc) := ⟨rfl, rfl⟩
theorem lsrAbs (w : Addr) : Statement (.lsrAbs w) := ⟨rfl, rfl⟩
theorem lsrZpX (z : Byte) : Statement (.lsrZpX z) := ⟨rfl, rfl⟩
theorem lsrAbsX (w : Addr) : Statement (.lsrAbsX w) := ⟨rfl, rfl⟩
theorem nop : Statement (.nop) := ⟨rfl, rfl⟩
theorem oraIndX (z : Byte) : Statement (.oraIndX z) := ⟨rfl, rfl⟩
theorem oraZp (z : Byte) : Statement (.oraZp z) := ⟨rfl, rfl⟩
theorem oraImm (m : Byte) : Statement (.oraImm m) := ⟨rfl, rfl⟩
theorem oraAbs (w : Addr) : Statement (.oraAbs w) := ⟨rfl, rfl⟩
theorem oraIndY (z : Byte) : Statement (.oraIndY z) := ⟨rfl, rfl⟩
theorem oraZpX (z : Byte) : Statement (.oraZpX z) := ⟨rfl, rfl⟩
theorem oraAbsY (w : Addr) : Statement (.oraAbsY w) := ⟨rfl, rfl⟩
theorem oraAbsX (w : Addr) : Statement (.oraAbsX w) := ⟨rfl, rfl⟩
theorem pha : Statement (.pha) := ⟨rfl, rfl⟩
theorem php : Statement (.php) := ⟨rfl, rfl⟩
theorem pla : Statement (.pla) := ⟨rfl, rfl⟩
theorem plp : Statement (.plp) := ⟨rfl, rfl⟩
theorem rolZp (z : Byte) : Statement (.rolZp z) := ⟨rfl, rfl⟩
theorem rolAcc : Statement (.rolAcc) := ⟨rfl, rfl⟩
theorem rolAbs (w : Addr) : Statement (.rolAbs w) := ⟨rfl, rfl⟩
theorem rolZpX (z : Byte) : Statement (.rolZpX z) := ⟨rfl, rfl⟩
theorem rolAbsX (w : Addr) : Statement (.rolAbsX w) := ⟨rfl, rfl⟩
theorem rorZp (z : Byte) : Statement (.rorZp z) := ⟨rfl, rfl⟩
theorem rorAcc : Statement (.rorAcc) := ⟨rfl, rfl⟩
theorem rorAbs (w : Addr) : Statement (.rorAbs w) := ⟨rfl, rfl⟩
theorem rorZpX (z : Byte) : Statement (.rorZpX z) := ⟨rfl, rfl⟩
theorem rorAbsX (w : Addr) : Statement (.rorAbsX w) := ⟨rfl, rfl⟩
theorem rti : Statement (.rti) := ⟨rfl, rfl⟩
theorem rts : Statement (.rts) := ⟨rfl, rfl⟩
theorem sbcIndX (z : Byte) : Statement (.sbcIndX z) := ⟨rfl, rfl⟩
theorem sbcZp (z : Byte) : Statement (.sbcZp z) := ⟨rfl, rfl⟩
theorem sbcImm (m : Byte) : Statement (.sbcImm m) := ⟨rfl, rfl⟩
theorem sbcAbs (w : Addr) : Statement (.sbcAbs w) := ⟨rfl, rfl⟩
theorem sbcIndY (z : Byte) : Statement (.sbcIndY z) := ⟨rfl, rfl⟩
theorem sbcZpX (z : Byte) : Statement (.sbcZpX z) := ⟨rfl, rfl⟩
theorem sbcAbsY (w : Addr) : Statement (.sbcAbsY w) := ⟨rfl, rfl⟩
theorem sbcAbsX (w : Addr) : Statement (.sbcAbsX w) := ⟨rfl, rfl⟩
theorem sec : Statement (.sec) := ⟨rfl, rfl⟩
theorem sed : Statement (.sed) := ⟨rfl, rfl⟩
theorem sei : Statement (.sei) := ⟨rfl, rfl⟩
theorem staIndX (z : Byte) : Statement (.staIndX z) := ⟨rfl, rfl⟩
theorem staZp (z : Byte) : Statement (.staZp z) := ⟨rfl, rfl⟩
theorem staAbs (w : Addr) : Statement (.staAbs w) := ⟨rfl, rfl⟩
theorem staIndY (z : Byte) : Statement (.staIndY z) := ⟨rfl, rfl⟩
theorem staZpX (z : Byte) : Statement (.staZpX z) := ⟨rfl, rfl⟩
theorem staAbsY (w : Addr) : Statement (.staAbsY w) := ⟨rfl, rfl⟩
theorem staAbsX (w : Addr) : Statement (.staAbsX w) := ⟨rfl, rfl⟩
theorem stxZp (z : Byte) : Statement (.stxZp z) := ⟨rfl, rfl⟩
theorem stxAbs (w : Addr) : Statement (.stxAbs w) := ⟨rfl, rfl⟩
theorem stxZpY (z : Byte) : Statement (.stxZpY z) := ⟨rfl, rfl⟩
theorem styZp (z : Byte) : Statement (.styZp z) := ⟨rfl, rfl⟩
theorem styAbs (w : Addr) : Statement (.styAbs w) := ⟨rfl, rfl⟩
theorem styZpX (z : Byte) : Statement (.styZpX z) := ⟨rfl, rfl⟩
theorem tax : Statement (.tax) := ⟨rfl, rfl⟩
theorem tay : Statement (.tay) := ⟨rfl, rfl⟩
theorem tsx : Statement (.tsx) := ⟨rfl, rfl⟩
theorem txa : Statement (.txa) := ⟨rfl, rfl⟩
theorem txs : Statement (.txs) := ⟨rfl, rfl⟩
theorem tya : Statement (.tya) := ⟨rfl, rfl⟩

end Sys2Proof.Laws.EncodedForm
end

