-- ==== Sys2Proof/Tests/Slice0.lean ====
section
/-! SUPPORT. The model's own tests: forms refused by WellFormed, words written out bit by bit from the spec's encodings,
one or two spec vectors per instruction, the interrupt vectors, and for each statement with hypotheses a state that
meets them. Expected results come from the spec (30_encoding.md R84, spec/opcode_table.json, 95_test_vectors.md). -/

namespace Sys2Proof.Tests

open Machine Stmt

/-! A term of each kind that WellFormed refuses -/

theorem test_no_immediate_store : formDefined .sta .imm = false := by decide
theorem test_no_stx_absY : formDefined .stx .absY = false := by decide
theorem test_no_sty_absX : formDefined .sty .absX = false := by decide
theorem test_no_bit_immediate : formDefined .bit .imm = false := by decide
theorem test_no_inc_accumulator : formDefined .inc .accum = false := by decide
theorem test_no_jsr_indirect : formDefined .jsr .indirect = false := by decide
theorem test_no_branch_absolute : formDefined .bne .abs = false := by decide
theorem test_no_nop_operand : formDefined .nop .zp = false := by decide

/-! Every op code of the matrix, written bit by bit (spec/opcode_table.json, the column "encoding"); an address operand
is `$1234`, low byte first -/

theorem test_decode_row_0_low :
    decode [0b00000000] = .ok (.brk, []) ∧
    decode [0b00000001, 0x34] = .ok (.oraIndX 0x34, []) ∧
    decode [0b00000101, 0x34] = .ok (.oraZp 0x34, []) ∧
    decode [0b00000110, 0x34] = .ok (.aslZp 0x34, []) := by decide

theorem test_decode_row_0_high :
    decode [0b00001000] = .ok (.php, []) ∧
    decode [0b00001001, 0x34] = .ok (.oraImm 0x34, []) ∧
    decode [0b00001010] = .ok (.aslAcc, []) ∧
    decode [0b00001101, 0x34, 0x12] = .ok (.oraAbs 0x1234, []) ∧
    decode [0b00001110, 0x34, 0x12] = .ok (.aslAbs 0x1234, []) := by decide

theorem test_decode_row_1_low :
    decode [0b00010000, 0x34] = .ok (.bpl 0x34, []) ∧
    decode [0b00010001, 0x34] = .ok (.oraIndY 0x34, []) ∧
    decode [0b00010101, 0x34] = .ok (.oraZpX 0x34, []) ∧
    decode [0b00010110, 0x34] = .ok (.aslZpX 0x34, []) := by decide

theorem test_decode_row_1_high :
    decode [0b00011000] = .ok (.clc, []) ∧
    decode [0b00011001, 0x34, 0x12] = .ok (.oraAbsY 0x1234, []) ∧
    decode [0b00011101, 0x34, 0x12] = .ok (.oraAbsX 0x1234, []) ∧
    decode [0b00011110, 0x34, 0x12] = .ok (.aslAbsX 0x1234, []) := by decide

theorem test_decode_row_2_low :
    decode [0b00100000, 0x34, 0x12] = .ok (.jsr 0x1234, []) ∧
    decode [0b00100001, 0x34] = .ok (.andIndX 0x34, []) ∧
    decode [0b00100100, 0x34] = .ok (.bitZp 0x34, []) ∧
    decode [0b00100101, 0x34] = .ok (.andZp 0x34, []) ∧
    decode [0b00100110, 0x34] = .ok (.rolZp 0x34, []) := by decide

theorem test_decode_row_2_high :
    decode [0b00101000] = .ok (.plp, []) ∧
    decode [0b00101001, 0x34] = .ok (.andImm 0x34, []) ∧
    decode [0b00101010] = .ok (.rolAcc, []) ∧
    decode [0b00101100, 0x34, 0x12] = .ok (.bitAbs 0x1234, []) ∧
    decode [0b00101101, 0x34, 0x12] = .ok (.andAbs 0x1234, []) ∧
    decode [0b00101110, 0x34, 0x12] = .ok (.rolAbs 0x1234, []) := by decide

theorem test_decode_row_3_low :
    decode [0b00110000, 0x34] = .ok (.bmi 0x34, []) ∧
    decode [0b00110001, 0x34] = .ok (.andIndY 0x34, []) ∧
    decode [0b00110101, 0x34] = .ok (.andZpX 0x34, []) ∧
    decode [0b00110110, 0x34] = .ok (.rolZpX 0x34, []) := by decide

theorem test_decode_row_3_high :
    decode [0b00111000] = .ok (.sec, []) ∧
    decode [0b00111001, 0x34, 0x12] = .ok (.andAbsY 0x1234, []) ∧
    decode [0b00111101, 0x34, 0x12] = .ok (.andAbsX 0x1234, []) ∧
    decode [0b00111110, 0x34, 0x12] = .ok (.rolAbsX 0x1234, []) := by decide

theorem test_decode_row_4_low :
    decode [0b01000000] = .ok (.rti, []) ∧
    decode [0b01000001, 0x34] = .ok (.eorIndX 0x34, []) ∧
    decode [0b01000101, 0x34] = .ok (.eorZp 0x34, []) ∧
    decode [0b01000110, 0x34] = .ok (.lsrZp 0x34, []) := by decide

theorem test_decode_row_4_high :
    decode [0b01001000] = .ok (.pha, []) ∧
    decode [0b01001001, 0x34] = .ok (.eorImm 0x34, []) ∧
    decode [0b01001010] = .ok (.lsrAcc, []) ∧
    decode [0b01001100, 0x34, 0x12] = .ok (.jmpAbs 0x1234, []) ∧
    decode [0b01001101, 0x34, 0x12] = .ok (.eorAbs 0x1234, []) ∧
    decode [0b01001110, 0x34, 0x12] = .ok (.lsrAbs 0x1234, []) := by decide

theorem test_decode_row_5_low :
    decode [0b01010000, 0x34] = .ok (.bvc 0x34, []) ∧
    decode [0b01010001, 0x34] = .ok (.eorIndY 0x34, []) ∧
    decode [0b01010101, 0x34] = .ok (.eorZpX 0x34, []) ∧
    decode [0b01010110, 0x34] = .ok (.lsrZpX 0x34, []) := by decide

theorem test_decode_row_5_high :
    decode [0b01011000] = .ok (.cli, []) ∧
    decode [0b01011001, 0x34, 0x12] = .ok (.eorAbsY 0x1234, []) ∧
    decode [0b01011101, 0x34, 0x12] = .ok (.eorAbsX 0x1234, []) ∧
    decode [0b01011110, 0x34, 0x12] = .ok (.lsrAbsX 0x1234, []) := by decide

theorem test_decode_row_6_low :
    decode [0b01100000] = .ok (.rts, []) ∧
    decode [0b01100001, 0x34] = .ok (.adcIndX 0x34, []) ∧
    decode [0b01100101, 0x34] = .ok (.adcZp 0x34, []) ∧
    decode [0b01100110, 0x34] = .ok (.rorZp 0x34, []) := by decide

theorem test_decode_row_6_high :
    decode [0b01101000] = .ok (.pla, []) ∧
    decode [0b01101001, 0x34] = .ok (.adcImm 0x34, []) ∧
    decode [0b01101010] = .ok (.rorAcc, []) ∧
    decode [0b01101100, 0x34, 0x12] = .ok (.jmpInd 0x1234, []) ∧
    decode [0b01101101, 0x34, 0x12] = .ok (.adcAbs 0x1234, []) ∧
    decode [0b01101110, 0x34, 0x12] = .ok (.rorAbs 0x1234, []) := by decide

theorem test_decode_row_7_low :
    decode [0b01110000, 0x34] = .ok (.bvs 0x34, []) ∧
    decode [0b01110001, 0x34] = .ok (.adcIndY 0x34, []) ∧
    decode [0b01110101, 0x34] = .ok (.adcZpX 0x34, []) ∧
    decode [0b01110110, 0x34] = .ok (.rorZpX 0x34, []) := by decide

theorem test_decode_row_7_high :
    decode [0b01111000] = .ok (.sei, []) ∧
    decode [0b01111001, 0x34, 0x12] = .ok (.adcAbsY 0x1234, []) ∧
    decode [0b01111101, 0x34, 0x12] = .ok (.adcAbsX 0x1234, []) ∧
    decode [0b01111110, 0x34, 0x12] = .ok (.rorAbsX 0x1234, []) := by decide

theorem test_decode_row_8_low :
    decode [0b10000001, 0x34] = .ok (.staIndX 0x34, []) ∧
    decode [0b10000100, 0x34] = .ok (.styZp 0x34, []) ∧
    decode [0b10000101, 0x34] = .ok (.staZp 0x34, []) ∧
    decode [0b10000110, 0x34] = .ok (.stxZp 0x34, []) := by decide

theorem test_decode_row_8_high :
    decode [0b10001000] = .ok (.dey, []) ∧
    decode [0b10001010] = .ok (.txa, []) ∧
    decode [0b10001100, 0x34, 0x12] = .ok (.styAbs 0x1234, []) ∧
    decode [0b10001101, 0x34, 0x12] = .ok (.staAbs 0x1234, []) ∧
    decode [0b10001110, 0x34, 0x12] = .ok (.stxAbs 0x1234, []) := by decide

theorem test_decode_row_9_low :
    decode [0b10010000, 0x34] = .ok (.bcc 0x34, []) ∧
    decode [0b10010001, 0x34] = .ok (.staIndY 0x34, []) ∧
    decode [0b10010100, 0x34] = .ok (.styZpX 0x34, []) ∧
    decode [0b10010101, 0x34] = .ok (.staZpX 0x34, []) ∧
    decode [0b10010110, 0x34] = .ok (.stxZpY 0x34, []) := by decide

theorem test_decode_row_9_high :
    decode [0b10011000] = .ok (.tya, []) ∧
    decode [0b10011001, 0x34, 0x12] = .ok (.staAbsY 0x1234, []) ∧
    decode [0b10011010] = .ok (.txs, []) ∧
    decode [0b10011101, 0x34, 0x12] = .ok (.staAbsX 0x1234, []) := by decide

theorem test_decode_row_A_low :
    decode [0b10100000, 0x34] = .ok (.ldyImm 0x34, []) ∧
    decode [0b10100001, 0x34] = .ok (.ldaIndX 0x34, []) ∧
    decode [0b10100010, 0x34] = .ok (.ldxImm 0x34, []) ∧
    decode [0b10100100, 0x34] = .ok (.ldyZp 0x34, []) ∧
    decode [0b10100101, 0x34] = .ok (.ldaZp 0x34, []) ∧
    decode [0b10100110, 0x34] = .ok (.ldxZp 0x34, []) := by decide

theorem test_decode_row_A_high :
    decode [0b10101000] = .ok (.tay, []) ∧
    decode [0b10101001, 0x34] = .ok (.ldaImm 0x34, []) ∧
    decode [0b10101010] = .ok (.tax, []) ∧
    decode [0b10101100, 0x34, 0x12] = .ok (.ldyAbs 0x1234, []) ∧
    decode [0b10101101, 0x34, 0x12] = .ok (.ldaAbs 0x1234, []) ∧
    decode [0b10101110, 0x34, 0x12] = .ok (.ldxAbs 0x1234, []) := by decide

theorem test_decode_row_B_low :
    decode [0b10110000, 0x34] = .ok (.bcs 0x34, []) ∧
    decode [0b10110001, 0x34] = .ok (.ldaIndY 0x34, []) ∧
    decode [0b10110100, 0x34] = .ok (.ldyZpX 0x34, []) ∧
    decode [0b10110101, 0x34] = .ok (.ldaZpX 0x34, []) ∧
    decode [0b10110110, 0x34] = .ok (.ldxZpY 0x34, []) := by decide

theorem test_decode_row_B_high :
    decode [0b10111000] = .ok (.clv, []) ∧
    decode [0b10111001, 0x34, 0x12] = .ok (.ldaAbsY 0x1234, []) ∧
    decode [0b10111010] = .ok (.tsx, []) ∧
    decode [0b10111100, 0x34, 0x12] = .ok (.ldyAbsX 0x1234, []) ∧
    decode [0b10111101, 0x34, 0x12] = .ok (.ldaAbsX 0x1234, []) ∧
    decode [0b10111110, 0x34, 0x12] = .ok (.ldxAbsY 0x1234, []) := by decide

theorem test_decode_row_C_low :
    decode [0b11000000, 0x34] = .ok (.cpyImm 0x34, []) ∧
    decode [0b11000001, 0x34] = .ok (.cmpIndX 0x34, []) ∧
    decode [0b11000100, 0x34] = .ok (.cpyZp 0x34, []) ∧
    decode [0b11000101, 0x34] = .ok (.cmpZp 0x34, []) ∧
    decode [0b11000110, 0x34] = .ok (.decZp 0x34, []) := by decide

theorem test_decode_row_C_high :
    decode [0b11001000] = .ok (.iny, []) ∧
    decode [0b11001001, 0x34] = .ok (.cmpImm 0x34, []) ∧
    decode [0b11001010] = .ok (.dex, []) ∧
    decode [0b11001100, 0x34, 0x12] = .ok (.cpyAbs 0x1234, []) ∧
    decode [0b11001101, 0x34, 0x12] = .ok (.cmpAbs 0x1234, []) ∧
    decode [0b11001110, 0x34, 0x12] = .ok (.decAbs 0x1234, []) := by decide

theorem test_decode_row_D_low :
    decode [0b11010000, 0x34] = .ok (.bne 0x34, []) ∧
    decode [0b11010001, 0x34] = .ok (.cmpIndY 0x34, []) ∧
    decode [0b11010101, 0x34] = .ok (.cmpZpX 0x34, []) ∧
    decode [0b11010110, 0x34] = .ok (.decZpX 0x34, []) := by decide

theorem test_decode_row_D_high :
    decode [0b11011000] = .ok (.cld, []) ∧
    decode [0b11011001, 0x34, 0x12] = .ok (.cmpAbsY 0x1234, []) ∧
    decode [0b11011101, 0x34, 0x12] = .ok (.cmpAbsX 0x1234, []) ∧
    decode [0b11011110, 0x34, 0x12] = .ok (.decAbsX 0x1234, []) := by decide

theorem test_decode_row_E_low :
    decode [0b11100000, 0x34] = .ok (.cpxImm 0x34, []) ∧
    decode [0b11100001, 0x34] = .ok (.sbcIndX 0x34, []) ∧
    decode [0b11100100, 0x34] = .ok (.cpxZp 0x34, []) ∧
    decode [0b11100101, 0x34] = .ok (.sbcZp 0x34, []) ∧
    decode [0b11100110, 0x34] = .ok (.incZp 0x34, []) := by decide

theorem test_decode_row_E_high :
    decode [0b11101000] = .ok (.inx, []) ∧
    decode [0b11101001, 0x34] = .ok (.sbcImm 0x34, []) ∧
    decode [0b11101010] = .ok (.nop, []) ∧
    decode [0b11101100, 0x34, 0x12] = .ok (.cpxAbs 0x1234, []) ∧
    decode [0b11101101, 0x34, 0x12] = .ok (.sbcAbs 0x1234, []) ∧
    decode [0b11101110, 0x34, 0x12] = .ok (.incAbs 0x1234, []) := by decide

theorem test_decode_row_F_low :
    decode [0b11110000, 0x34] = .ok (.beq 0x34, []) ∧
    decode [0b11110001, 0x34] = .ok (.sbcIndY 0x34, []) ∧
    decode [0b11110101, 0x34] = .ok (.sbcZpX 0x34, []) ∧
    decode [0b11110110, 0x34] = .ok (.incZpX 0x34, []) := by decide

theorem test_decode_row_F_high :
    decode [0b11111000] = .ok (.sed, []) ∧
    decode [0b11111001, 0x34, 0x12] = .ok (.sbcAbsY 0x1234, []) ∧
    decode [0b11111101, 0x34, 0x12] = .ok (.sbcAbsX 0x1234, []) ∧
    decode [0b11111110, 0x34, 0x12] = .ok (.incAbsX 0x1234, []) := by decide

/-- A word as the opcode table numbers its bits: the second byte is bits 15 to 8, the third bits 23 to 16. -/
theorem test_decodeTableWord :
    decodeTableWord 8 0xEA = some .nop ∧ decodeTableWord 16 0x7FA9 = some (.ldaImm 0x7F) ∧
    decodeTableWord 24 0x30FF6C = some (.jmpInd 0x30FF) ∧ decodeTableWord 8 0x20 = some (.jsr 0) ∧
    decodeTableWord 8 0x02 = none ∧ decodeTableWord 24 0x123480 = none := by decide

/-! Vectors of 95_test_vectors.md: the instruction at `pc`, the registers, flags and bytes the vector names -/

/-- `$0300`-style start state: every register 0 but `S = $FF`, every flag clear, the bytes at `pc`. -/
def start (pc : Addr) (bytes : List Byte) : State :=
  placeBytes bytes pc { State.reset with pc := pc, sp := 0xFF, p := ⟨false, false, false, false, false, false⟩ }

/-- One byte more in memory. -/
def holding (a : Addr) (v : Byte) (s : State) : State := s.memWrite a v

/-- The state after one step, where there is one. -/
def ran (s : State) : Option State :=
  match step s with
  | .next t => some t
  | .fault _ => none
  | .refused _ => none

/-- AM5: LDA $F0,X. -/
theorem test_AM5 :
    (ran { holding 0x0110 0xEE (holding 0x0010 0x22 (start 0x0300 [0xB5, 0xF0])) with x := 0x20 }).map (fun t => (t.a, t.x, t.pc, t.p.n, t.p.z)) =
      some (0x22, 0x20, 0x0302, false, false) := by decide

/-- AM8: LDA $FFF0,X. -/
theorem test_AM8 :
    (ran { holding 0x0010 0x55 (start 0x0300 [0xBD, 0xF0, 0xFF]) with x := 0x20 }).map (fun t => (t.a, t.pc, t.p.n, t.p.z)) =
      some (0x55, 0x0303, false, false) := by decide

/-- LS3: LDX #$FF. -/
theorem test_LS3 :
    (ran (start 0x0300 [0xA2, 0xFF])).map (fun t => (t.x, t.pc, t.p.n, t.p.z)) =
      some (0xFF, 0x0302, true, false) := by decide

/-- AM6: LDX $FF,Y. -/
theorem test_AM6 :
    (ran { holding 0x0100 0xEE (holding 0x0000 0x33 (start 0x0300 [0xB6, 0xFF])) with y := 0x01 }).map (fun t => (t.x, t.y, t.pc, t.p.n, t.p.z)) =
      some (0x33, 0x01, 0x0302, false, false) := by decide

/-- LS4: LDY #$01. -/
theorem test_LS4 :
    (ran { start 0x0300 [0xA0, 0x01] with p := ⟨false, false, false, false, true, false⟩ }).map (fun t => (t.y, t.pc, t.p.n, t.p.z)) =
      some (0x01, 0x0302, false, false) := by decide

/-- LS6: LDY $2080,X. -/
theorem test_LS6 :
    (ran { holding 0x2100 0x7F (start 0x0300 [0xBC, 0x80, 0x20]) with x := 0x80 }).map (fun t => (t.y, t.pc, t.p.n, t.p.z)) =
      some (0x7F, 0x0303, false, false) := by decide

/-- LS7: STA $0200. -/
theorem test_LS7 :
    (ran { start 0x0300 [0x8D, 0x00, 0x02] with a := 0x5A, p := ⟨true, false, false, false, true, false⟩ }).map (fun t => (t.a, t.pc, t.p.n, t.p.z, t.byteAt 0x0200)) =
      some (0x5A, 0x0303, true, true, 0x5A) := by decide

/-- LS9: STA ($40),Y. -/
theorem test_LS9 :
    (ran { holding 0x0041 0x04 (holding 0x0040 0xFF (start 0x0300 [0x91, 0x40])) with a := 0xC3, y := 0x02 }).map (fun t => (t.a, t.pc, t.p.n, t.p.z, t.byteAt 0x0501)) =
      some (0xC3, 0x0302, false, false, 0xC3) := by decide

/-- LS10: STX $10. -/
theorem test_LS10 :
    (ran { start 0x0300 [0x86, 0x10] with x := 0x07 }).map (fun t => (t.x, t.pc, t.p.n, t.p.z, t.byteAt 0x0010)) =
      some (0x07, 0x0302, false, false, 0x07) := by decide

/-- LS11: STX $F8,Y. -/
theorem test_LS11 :
    (ran { start 0x0300 [0x96, 0xF8] with x := 0xAB, y := 0x10 }).map (fun t => (t.x, t.pc, t.p.n, t.p.z, t.byteAt 0x0008)) =
      some (0xAB, 0x0302, false, false, 0xAB) := by decide

/-- LS12: STY $F0,X. -/
theorem test_LS12 :
    (ran { start 0x0300 [0x94, 0xF0] with x := 0x20, y := 0x33 }).map (fun t => (t.y, t.pc, t.p.n, t.p.z, t.byteAt 0x0010)) =
      some (0x33, 0x0302, false, false, 0x33) := by decide

/-- LS13: TAX. -/
theorem test_LS13 :
    (ran { start 0x0300 [0xAA] with a := 0x80 }).map (fun t => (t.a, t.x, t.pc, t.p.n, t.p.z)) =
      some (0x80, 0x80, 0x0301, true, false) := by decide

/-- LS14: TAY. -/
theorem test_LS14 :
    (ran { start 0x0300 [0xA8] with y := 0x55, p := ⟨true, false, false, false, false, false⟩ }).map (fun t => (t.a, t.y, t.pc, t.p.n, t.p.z)) =
      some (0x00, 0x00, 0x0301, false, true) := by decide

/-- LS15: TXA. -/
theorem test_LS15 :
    (ran { start 0x0300 [0x8A] with x := 0x7F }).map (fun t => (t.a, t.x, t.pc, t.p.n, t.p.z)) =
      some (0x7F, 0x7F, 0x0301, false, false) := by decide

/-- LS16: TYA. -/
theorem test_LS16 :
    (ran { start 0x0300 [0x98] with y := 0xFF }).map (fun t => (t.a, t.y, t.pc, t.p.n, t.p.z)) =
      some (0xFF, 0xFF, 0x0301, true, false) := by decide

/-- LS17: TSX. -/
theorem test_LS17 :
    (ran { start 0x0300 [0xBA] with sp := 0xFD }).map (fun t => (t.x, t.sp, t.pc, t.p.n, t.p.z)) =
      some (0xFD, 0xFD, 0x0301, true, false) := by decide

/-- LS18: TSX. -/
theorem test_LS18 :
    (ran { start 0x0300 [0xBA] with sp := 0x00, p := ⟨true, false, false, false, false, false⟩ }).map (fun t => (t.x, t.sp, t.pc, t.p.n, t.p.z)) =
      some (0x00, 0x00, 0x0301, false, true) := by decide

/-- LS19: TXS. -/
theorem test_LS19 :
    (ran { start 0x0300 [0x9A] with p := ⟨true, false, false, false, false, false⟩ }).map (fun t => (t.x, t.sp, t.pc, t.p.n, t.p.z)) =
      some (0x00, 0x00, 0x0301, true, false) := by decide

/-- AM11: LDA ($FF,X). -/
theorem test_AM11 :
    (ran (holding 0x1234 0x88 (holding 0x0100 0xEE (holding 0x0000 0x12 (holding 0x00FF 0x34 (start 0x0300 [0xA1, 0xFF])))))).map (fun t => (t.a, t.pc, t.p.n, t.p.z)) =
      some (0x88, 0x0302, true, false) := by decide

/-- AM15: LDA ($FF),Y. -/
theorem test_AM15 :
    (ran { holding 0x1300 0xBB (holding 0x0100 0xEE (holding 0x0000 0x12 (holding 0x00FF 0xFF (start 0x0300 [0xB1, 0xFF])))) with y := 0x01 }).map (fun t => (t.a, t.pc, t.p.n, t.p.z)) =
      some (0xBB, 0x0302, true, false) := by decide

/-- AB4: ADC #$FF. -/
theorem test_AB4 :
    (ran { start 0x0300 [0x69, 0xFF] with a := 0xFF, p := ⟨false, false, false, false, false, true⟩ }).map (fun t => (t.a, t.p.n, t.p.v, t.p.z, t.p.c)) =
      some (0xFF, true, false, false, true) := by decide

/-- AD1: ADC #$46. -/
theorem test_AD1 :
    (ran { start 0x0300 [0x69, 0x46] with a := 0x58, p := ⟨false, false, true, false, false, true⟩ }).map (fun t => (t.a, t.p.c)) =
      some (0x05, true) := by decide

/-- AB14: SBC #$05. -/
theorem test_AB14 :
    (ran { start 0x0300 [0xE9, 0x05] with a := 0x05 }).map (fun t => (t.a, t.p.n, t.p.v, t.p.z, t.p.c)) =
      some (0xFF, true, false, false, false) := by decide

/-- AD11: SBC #$21. -/
theorem test_AD11 :
    (ran { start 0x0300 [0xE9, 0x21] with a := 0x12, p := ⟨false, false, true, false, false, true⟩ }).map (fun t => (t.a, t.p.c)) =
      some (0x91, false) := by decide

/-- LG2: AND #$00. -/
theorem test_LG2 :
    (ran { start 0x0300 [0x29, 0x00] with a := 0xFF, p := ⟨true, false, false, false, false, false⟩ }).map (fun t => (t.a, t.p.n, t.p.v, t.p.z, t.p.c)) =
      some (0x00, false, false, true, false) := by decide

/-- LG4: ORA #$80. -/
theorem test_LG4 :
    (ran { start 0x0300 [0x09, 0x80] with a := 0x01 }).map (fun t => (t.a, t.p.n, t.p.v, t.p.z, t.p.c)) =
      some (0x81, true, false, false, false) := by decide

/-- LG7: EOR #$5A. -/
theorem test_LG7 :
    (ran { start 0x0300 [0x49, 0x5A] with a := 0x5A, p := ⟨false, true, false, false, false, true⟩ }).map (fun t => (t.a, t.p.n, t.p.v, t.p.z, t.p.c)) =
      some (0x00, false, true, true, true) := by decide

/-- LG9: CMP #$01. -/
theorem test_LG9 :
    (ran { start 0x0300 [0xC9, 0x01] with p := ⟨false, false, false, false, false, true⟩ }).map (fun t => (t.a, t.p.n, t.p.v, t.p.z, t.p.c)) =
      some (0x00, true, false, false, false) := by decide

/-- LG10: CMP #$7F. -/
theorem test_LG10 :
    (ran { start 0x0300 [0xC9, 0x7F] with a := 0x80, p := ⟨false, true, false, false, false, false⟩ }).map (fun t => (t.a, t.p.n, t.p.v, t.p.z, t.p.c)) =
      some (0x80, false, true, false, true) := by decide

/-- LG12: CPX #$05. -/
theorem test_LG12 :
    (ran { start 0x0300 [0xE0, 0x05] with x := 0x03 }).map (fun t => (t.x, t.p.n, t.p.v, t.p.z, t.p.c)) =
      some (0x03, true, false, false, false) := by decide

/-- LG13: CPX $10. -/
theorem test_LG13 :
    (ran { holding 0x0010 0xFE (start 0x0300 [0xE4, 0x10]) with x := 0xFF }).map (fun t => (t.x, t.p.n, t.p.v, t.p.z, t.p.c)) =
      some (0xFF, false, false, false, true) := by decide

/-- LG14: CPY #$00. -/
theorem test_LG14 :
    (ran (start 0x0300 [0xC0, 0x00])).map (fun t => (t.y, t.p.n, t.p.v, t.p.z, t.p.c)) =
      some (0x00, false, false, true, true) := by decide

/-- LG15: CPY $2000. -/
theorem test_LG15 :
    (ran { holding 0x2000 0x41 (start 0x0300 [0xCC, 0x00, 0x20]) with y := 0x40 }).map (fun t => (t.y, t.p.n, t.p.v, t.p.z, t.p.c)) =
      some (0x40, true, false, false, false) := by decide

/-- LG17: BIT $10. -/
theorem test_LG17 :
    (ran { holding 0x0010 0xC0 (start 0x0300 [0x24, 0x10]) with a := 0x3F }).map (fun t => (t.a, t.p.n, t.p.v, t.p.z, t.p.c)) =
      some (0x3F, true, true, true, false) := by decide

/-- LG19: BIT $2000. -/
theorem test_LG19 :
    (ran { holding 0x2000 0x80 (start 0x0300 [0x2C, 0x00, 0x20]) with a := 0xFF }).map (fun t => (t.a, t.p.n, t.p.v, t.p.z, t.p.c)) =
      some (0xFF, true, false, false, false) := by decide

/-- SH3: ASL A. -/
theorem test_SH3 :
    (ran { start 0x0300 [0x0A] with a := 0x40 }).map (fun t => (t.a, t.p.n, t.p.v, t.p.z, t.p.c)) =
      some (0x80, true, false, false, false) := by decide

/-- SH4: ASL $10. -/
theorem test_SH4 :
    (ran (holding 0x0010 0xFF (start 0x0300 [0x06, 0x10]))).map (fun t => (t.a, t.p.n, t.p.v, t.p.z, t.p.c, t.byteAt 0x0010)) =
      some (0x00, true, false, false, true, 0xFE) := by decide

/-- SH6: LSR A. -/
theorem test_SH6 :
    (ran { start 0x0300 [0x4A] with a := 0x01, p := ⟨true, false, false, false, false, false⟩ }).map (fun t => (t.a, t.p.n, t.p.v, t.p.z, t.p.c)) =
      some (0x00, false, false, true, true) := by decide

/-- SH7: LSR $0200. -/
theorem test_SH7 :
    (ran (holding 0x0200 0xFF (start 0x0300 [0x4E, 0x00, 0x02]))).map (fun t => (t.a, t.p.n, t.p.v, t.p.z, t.p.c, t.byteAt 0x0200)) =
      some (0x00, false, false, false, true, 0x7F) := by decide

/-- SH8: ROL A. -/
theorem test_SH8 :
    (ran { start 0x0300 [0x2A] with a := 0x40, p := ⟨false, false, false, false, false, true⟩ }).map (fun t => (t.a, t.p.n, t.p.v, t.p.z, t.p.c)) =
      some (0x81, true, false, false, false) := by decide

/-- SH11: ROL $F0,X. -/
theorem test_SH11 :
    (ran { holding 0x0010 0xFF (start 0x0300 [0x36, 0xF0]) with x := 0x20, p := ⟨false, false, false, false, false, true⟩ }).map (fun t => (t.x, t.p.n, t.p.v, t.p.z, t.p.c, t.byteAt 0x0010)) =
      some (0x20, true, false, false, true, 0xFF) := by decide

/-- SH12: ROR A. -/
theorem test_SH12 :
    (ran { start 0x0300 [0x6A] with a := 0x02, p := ⟨false, false, false, false, false, true⟩ }).map (fun t => (t.a, t.p.n, t.p.v, t.p.z, t.p.c)) =
      some (0x81, true, false, false, false) := by decide

/-- SH15: ROR $02F0,X. -/
theorem test_SH15 :
    (ran { holding 0x0310 0xFF (start 0x0300 [0x7E, 0xF0, 0x02]) with x := 0x20, p := ⟨false, false, false, false, false, true⟩ }).map (fun t => (t.x, t.p.n, t.p.v, t.p.z, t.p.c, t.byteAt 0x0310)) =
      some (0x20, true, false, false, true, 0xFF) := by decide

/-- SH16: INC $10. -/
theorem test_SH16 :
    (ran (holding 0x0010 0xFF (start 0x0300 [0xE6, 0x10]))).map (fun t => (t.a, t.p.n, t.p.v, t.p.z, t.p.c, t.byteAt 0x0010)) =
      some (0x00, false, false, true, false, 0x00) := by decide

/-- SH17: INC $10. -/
theorem test_SH17 :
    (ran (holding 0x0010 0x7F (start 0x0300 [0xE6, 0x10]))).map (fun t => (t.a, t.p.n, t.p.v, t.p.z, t.p.c, t.byteAt 0x0010)) =
      some (0x00, true, false, false, false, 0x80) := by decide

/-- SH18: DEC $0200. -/
theorem test_SH18 :
    (ran (holding 0x0200 0x01 (start 0x0300 [0xCE, 0x00, 0x02]))).map (fun t => (t.a, t.p.n, t.p.v, t.p.z, t.p.c, t.byteAt 0x0200)) =
      some (0x00, false, false, true, false, 0x00) := by decide

/-- SH19: DEC $0200. -/
theorem test_SH19 :
    (ran { holding 0x0200 0x00 (start 0x0300 [0xCE, 0x00, 0x02]) with p := ⟨false, false, false, false, false, true⟩ }).map (fun t => (t.a, t.p.n, t.p.v, t.p.z, t.p.c, t.byteAt 0x0200)) =
      some (0x00, true, false, false, true, 0xFF) := by decide

/-- SH21: INX. -/
theorem test_SH21 :
    (ran { start 0x0300 [0xE8] with x := 0xFF }).map (fun t => (t.x, t.p.n, t.p.v, t.p.z, t.p.c)) =
      some (0x00, false, false, true, false) := by decide

/-- SH22: INY. -/
theorem test_SH22 :
    (ran { start 0x0300 [0xC8] with y := 0xFF }).map (fun t => (t.y, t.p.n, t.p.v, t.p.z, t.p.c)) =
      some (0x00, false, false, true, false) := by decide

/-- SH24: DEX. -/
theorem test_SH24 :
    (ran (start 0x0300 [0xCA])).map (fun t => (t.x, t.p.n, t.p.v, t.p.z, t.p.c)) =
      some (0xFF, true, false, false, false) := by decide

/-- SH26: DEY. -/
theorem test_SH26 :
    (ran (start 0x0300 [0x88])).map (fun t => (t.y, t.p.n, t.p.v, t.p.z, t.p.c)) =
      some (0xFF, true, false, false, false) := by decide

/-- BR1: BCC $0306. -/
theorem test_BR1 :
    (ran (start 0x0300 [0x90, 0x04])).map (fun t => (t.pc, t.cycles)) =
      some (0x0306, 3) := by decide

/-- BR2: BCC $0306. -/
theorem test_BR2 :
    (ran { start 0x0300 [0x90, 0x04] with p := ⟨false, false, false, false, false, true⟩ }).map (fun t => (t.pc, t.cycles)) =
      some (0x0302, 2) := by decide

/-- BR3: BCS $0300. -/
theorem test_BR3 :
    (ran { start 0x0300 [0xB0, 0xFE] with p := ⟨false, false, false, false, false, true⟩ }).map (fun t => (t.pc, t.cycles)) =
      some (0x0300, 3) := by decide

/-- BR4: BCS $0300. -/
theorem test_BR4 :
    (ran (start 0x0300 [0xB0, 0xFE])).map (fun t => (t.pc, t.cycles)) =
      some (0x0302, 2) := by decide

/-- BR5: BEQ $1102. -/
theorem test_BR5 :
    (ran { start 0x10F0 [0xF0, 0x10] with p := ⟨false, false, false, false, true, false⟩ }).map (fun t => (t.pc, t.cycles)) =
      some (0x1102, 4) := by decide

/-- BR6: BEQ $1102. -/
theorem test_BR6 :
    (ran (start 0x10F0 [0xF0, 0x10])).map (fun t => (t.pc, t.cycles)) =
      some (0x10F2, 2) := by decide

/-- BR7: BMI $2081. -/
theorem test_BR7 :
    (ran { start 0x2000 [0x30, 0x7F] with p := ⟨true, false, false, false, false, false⟩ }).map (fun t => (t.pc, t.cycles)) =
      some (0x2081, 3) := by decide

/-- BR8: BMI $2081. -/
theorem test_BR8 :
    (ran (start 0x2000 [0x30, 0x7F])).map (fun t => (t.pc, t.cycles)) =
      some (0x2002, 2) := by decide

/-- BR9: BNE $0202. -/
theorem test_BR9 :
    (ran (start 0x0205 [0xD0, 0xFB])).map (fun t => (t.pc, t.cycles)) =
      some (0x0202, 3) := by decide

/-- BR17: BNE $0071. -/
theorem test_BR17 :
    (ran (start 0xFFF0 [0xD0, 0x7F])).map (fun t => (t.pc, t.cycles)) =
      some (0x0071, 4) := by decide

/-- BR11: BPL $1F82. -/
theorem test_BR11 :
    (ran (start 0x2000 [0x10, 0x80])).map (fun t => (t.pc, t.cycles)) =
      some (0x1F82, 4) := by decide

/-- BR12: BPL $1F82. -/
theorem test_BR12 :
    (ran { start 0x2000 [0x10, 0x80] with p := ⟨true, false, false, false, false, false⟩ }).map (fun t => (t.pc, t.cycles)) =
      some (0x2002, 2) := by decide

/-- BR13: BVC $0402. -/
theorem test_BR13 :
    (ran (start 0x0400 [0x50, 0x00])).map (fun t => (t.pc, t.cycles)) =
      some (0x0402, 3) := by decide

/-- BR14: BVC $0404. -/
theorem test_BR14 :
    (ran { start 0x0400 [0x50, 0x02] with p := ⟨false, true, false, false, false, false⟩ }).map (fun t => (t.pc, t.cycles)) =
      some (0x0402, 2) := by decide

/-- BR15: BVS $0404. -/
theorem test_BR15 :
    (ran { start 0x0400 [0x70, 0x02] with p := ⟨false, true, false, false, false, false⟩ }).map (fun t => (t.pc, t.cycles)) =
      some (0x0404, 3) := by decide

/-- BR16: BVS $0404. -/
theorem test_BR16 :
    (ran (start 0x0400 [0x70, 0x02])).map (fun t => (t.pc, t.cycles)) =
      some (0x0402, 2) := by decide

/-- JS1: JMP $1276. -/
theorem test_JS1 :
    (ran (start 0x0300 [0x4C, 0x76, 0x12])).map (fun t => (t.sp, t.pc)) =
      some (0xFF, 0x1276) := by decide

/-- AM17: JMP ($30FF). -/
theorem test_AM17 :
    (ran (holding 0x3100 0x55 (holding 0x3000 0x12 (holding 0x30FF 0x76 (start 0x0300 [0x6C, 0xFF, 0x30]))))).map (fun t => t.pc) =
      some 0x1276 := by decide

/-- JS3: JSR $0400. -/
theorem test_JS3 :
    (ran (start 0x0300 [0x20, 0x00, 0x04])).map (fun t => (t.sp, t.pc, t.byteAt 0x01FF, t.byteAt 0x01FE)) =
      some (0xFD, 0x0400, 0x03, 0x02) := by decide

/-- JS4: JSR $0400. -/
theorem test_JS4 :
    (ran { start 0x0300 [0x20, 0x00, 0x04] with sp := 0x00 }).map (fun t => (t.sp, t.pc, t.byteAt 0x0100, t.byteAt 0x01FF)) =
      some (0xFE, 0x0400, 0x03, 0x02) := by decide

/-- JS5: RTS. -/
theorem test_JS5 :
    (ran { holding 0x01FF 0x03 (holding 0x01FE 0x02 (start 0x0300 [0x60])) with sp := 0xFD }).map (fun t => (t.sp, t.pc)) =
      some (0xFF, 0x0303) := by decide

/-- JS6: RTS. -/
theorem test_JS6 :
    (ran (holding 0x0101 0x12 (holding 0x0100 0xFF (start 0x0300 [0x60])))).map (fun t => (t.sp, t.pc)) =
      some (0x01, 0x1300) := by decide

/-- ST1: PHA. -/
theorem test_ST1 :
    (ran { start 0x0300 [0x48] with a := 0x42 }).map (fun t => (t.a, t.sp, t.pc, t.byteAt 0x01FF)) =
      some (0x42, 0xFE, 0x0301, 0x42) := by decide

/-- ST2: PHA. -/
theorem test_ST2 :
    (ran { start 0x0300 [0x48] with a := 0x42, sp := 0x00 }).map (fun t => (t.a, t.sp, t.pc, t.byteAt 0x0100)) =
      some (0x42, 0xFF, 0x0301, 0x42) := by decide

/-- ST3: PHP. -/
theorem test_ST3 :
    (ran { start 0x0300 [0x08] with p := ⟨false, false, false, true, true, true⟩ }).map (fun t => (t.sp, t.pc, t.p, t.byteAt 0x01FF)) =
      some (0xFE, 0x0301, ⟨false, false, false, true, true, true⟩, 0x37) := by decide

/-- ST5: PHP. -/
theorem test_ST5 :
    (ran { start 0x0300 [0x08] with p := ⟨true, true, true, true, true, true⟩ }).map (fun t => (t.sp, t.pc, t.p, t.byteAt 0x01FF)) =
      some (0xFE, 0x0301, ⟨true, true, true, true, true, true⟩, 0xFF) := by decide

/-- ST6: PLA. -/
theorem test_ST6 :
    (ran { holding 0x01FF 0x80 (start 0x0300 [0x68]) with sp := 0xFE }).map (fun t => (t.a, t.sp, t.pc, t.p.n, t.p.z)) =
      some (0x80, 0xFF, 0x0301, true, false) := by decide

/-- ST7: PLA. -/
theorem test_ST7 :
    (ran { holding 0x0100 0x00 (start 0x0300 [0x68]) with a := 0x55 }).map (fun t => (t.a, t.sp, t.pc, t.p.n, t.p.z)) =
      some (0x00, 0x00, 0x0301, false, true) := by decide

/-- ST8: PLP. -/
theorem test_ST8 :
    (ran { holding 0x01FF 0xFF (start 0x0300 [0x28]) with sp := 0xFE }).map (fun t => (t.sp, t.pc, t.p)) =
      some (0xFF, 0x0301, ⟨true, true, true, true, true, true⟩) := by decide

/-- ST9: PLP. -/
theorem test_ST9 :
    (ran { holding 0x01FF 0x00 (start 0x0300 [0x28]) with sp := 0xFE, p := ⟨true, true, true, true, true, true⟩ }).map (fun t => (t.sp, t.pc, t.p)) =
      some (0xFF, 0x0301, ⟨false, false, false, false, false, false⟩) := by decide

/-- ST12: CLC. -/
theorem test_ST12 :
    (ran { start 0x0300 [0x18] with p := ⟨true, true, true, true, true, true⟩ }).map (fun t => (t.pc, t.p)) =
      some (0x0301, ⟨true, true, true, true, true, false⟩) := by decide

/-- ST13: SEC. -/
theorem test_ST13 :
    (ran (start 0x0300 [0x38])).map (fun t => (t.pc, t.p)) =
      some (0x0301, ⟨false, false, false, false, false, true⟩) := by decide

/-- ST14: CLI. -/
theorem test_ST14 :
    (ran { start 0x0300 [0x58] with p := ⟨false, false, false, true, false, false⟩ }).map (fun t => (t.pc, t.p)) =
      some (0x0301, ⟨false, false, false, false, false, false⟩) := by decide

/-- ST15: SEI. -/
theorem test_ST15 :
    (ran (start 0x0300 [0x78])).map (fun t => (t.pc, t.p)) =
      some (0x0301, ⟨false, false, false, true, false, false⟩) := by decide

/-- ST16: CLD. -/
theorem test_ST16 :
    (ran { start 0x0300 [0xD8] with p := ⟨false, false, true, false, false, false⟩ }).map (fun t => (t.pc, t.p)) =
      some (0x0301, ⟨false, false, false, false, false, false⟩) := by decide

/-- ST17: SED. -/
theorem test_ST17 :
    (ran (start 0x0300 [0xF8])).map (fun t => (t.pc, t.p)) =
      some (0x0301, ⟨false, false, true, false, false, false⟩) := by decide

/-- ST18: CLV. -/
theorem test_ST18 :
    (ran { start 0x0300 [0xB8] with p := ⟨false, true, false, false, false, false⟩ }).map (fun t => (t.pc, t.p)) =
      some (0x0301, ⟨false, false, false, false, false, false⟩) := by decide

/-- ST19: NOP. -/
theorem test_ST19 :
    (ran { start 0x0300 [0xEA] with a := 0x12, x := 0x34, y := 0x56, p := ⟨true, false, false, false, false, true⟩ }).map (fun t => (t.a, t.x, t.y, t.sp, t.pc, t.p)) =
      some (0x12, 0x34, 0x56, 0xFF, 0x0301, ⟨true, false, false, false, false, true⟩) := by decide

/-- ST21: BRK. -/
theorem test_ST21 :
    (ran { holding 0xFFFF 0x12 (holding 0xFFFE 0x34 (start 0x0300 [0x00])) with p := ⟨true, false, true, true, false, false⟩ }).map (fun t => (t.sp, t.pc, t.p, t.byteAt 0x01FF, t.byteAt 0x01FE, t.byteAt 0x01FD)) =
      some (0xFC, 0x1234, ⟨true, false, true, true, false, false⟩, 0x03, 0x02, 0xBC) := by decide

/-- ST22: BRK. -/
theorem test_ST22 :
    (ran { holding 0xFFFF 0x80 (holding 0xFFFE 0x00 (start 0x0300 [0x00])) with sp := 0x01 }).map (fun t => (t.sp, t.pc, t.p, t.byteAt 0x0101, t.byteAt 0x0100, t.byteAt 0x01FF)) =
      some (0xFE, 0x8000, ⟨false, false, false, true, false, false⟩, 0x03, 0x02, 0x30) := by decide

/-- ST23: RTI. -/
theorem test_ST23 :
    (ran { holding 0x01FF 0x03 (holding 0x01FE 0x02 (holding 0x01FD 0x31 (start 0x0300 [0x40]))) with sp := 0xFC, p := ⟨false, false, false, true, false, false⟩ }).map (fun t => (t.sp, t.pc, t.p)) =
      some (0xFF, 0x0302, ⟨false, false, false, false, false, true⟩) := by decide

/-- ST24: RTI. -/
theorem test_ST24 :
    (ran { holding 0x01FF 0xFF (holding 0x01FE 0xFF (holding 0x01FD 0xCF (start 0x0300 [0x40]))) with sp := 0xFC }).map (fun t => (t.sp, t.pc, t.p)) =
      some (0xFF, 0xFFFF, ⟨true, true, true, true, true, true⟩) := by decide

/-! Interrupts, reset and undefined op codes (95_test_vectors.md, IN1 to IN7, UD1 to UD7) -/

/-- A boundary at `pc`, with the vectors of the interrupt vectors of the spec: NMI `$9000`, RES `$8000`, IRQ `$A000`. -/
def atBoundary (pc : Addr) (sp : Byte) (p : Flags) : State :=
  holding 0xFFFB 0x90 (holding 0xFFFD 0x80 (holding 0xFFFF 0xA0 { start pc [] with sp := sp, p := p }))

/-- IN1: the IRQ sequence. -/
theorem test_IN1 :
    (ran { atBoundary 0x0302 0xFF ⟨true, false, false, false, false, true⟩ with irqLine := true }).map
        (fun t => (t.pc, t.sp, t.p, t.byteAt 0x01FF, t.byteAt 0x01FE, t.byteAt 0x01FD)) =
      some (0xA000, 0xFC, ⟨true, false, false, true, false, true⟩, 0x03, 0x02, 0xA1) := by decide

/-- IN2: a masked IRQ; the instruction runs (here NOP). -/
theorem test_IN2 :
    (ran { start 0x0302 [0xEA] with p := ⟨false, false, false, true, false, false⟩, irqLine := true }).map
        (fun t => (t.pc, t.irqLine)) = some (0x0303, true) := by decide

/-- IN3: the NMI sequence. -/
theorem test_IN3 :
    (ran { atBoundary 0x1234 0x80 ⟨false, true, true, true, true, false⟩ with nmiPending := true }).map
        (fun t => (t.pc, t.sp, t.nmiPending, t.byteAt 0x0180, t.byteAt 0x017F, t.byteAt 0x017E)) =
      some (0x9000, 0x7D, false, 0x12, 0x34, 0x6E) := by decide

/-- IN4: the IRQ frame wraps in page one. -/
theorem test_IN4 :
    (ran { atBoundary 0x0302 0x01 ⟨false, false, false, false, true, false⟩ with irqLine := true }).map
        (fun t => (t.pc, t.sp, t.byteAt 0x0101, t.byteAt 0x0100, t.byteAt 0x01FF)) =
      some (0xA000, 0xFE, 0x03, 0x02, 0x22) := by decide

/-- IN5: NMI before IRQ. -/
theorem test_IN5 :
    (ran { atBoundary 0x0302 0xFF ⟨false, false, false, false, false, false⟩ with
      irqLine := true, nmiPending := true }).map (fun t => (t.pc, t.sp, t.p.i, t.irqLine)) =
      some (0x9000, 0xFC, true, true) := by decide

/-- IN6: the reset sequence. -/
theorem test_IN6 :
    (ran { atBoundary 0x1234 0x80 ⟨true, true, true, false, true, true⟩ with nmiPending := true, resetDue := true }).map
        (fun t => (t.pc, t.p.i, t.nmiPending)) = some (0x8000, true, false) := by decide

/-- IN7: RES on an R6503, whose twelve address lines show `$FFFC` as `$FFC`. -/
theorem test_IN7 :
    (ran (holding 0x0FFD 0x0F { start 0x0300 [] with platform := ⟨.r6503, []⟩, resetDue := true })).map
        (fun t => (t.pc, t.loc t.pc)) = some (0x0F00, 0xF00) := by decide

/-- Why a step is refused, where it is. -/
def refusal (s : State) : Option Refusal :=
  match step s with
  | .next _ => none
  | .fault _ => none
  | .refused r => some r

/-- UD1 to UD7. -/
theorem test_undefined_opcodes :
    ∀ op ∈ ([0x02, 0x80, 0x89, 0x9C, 0xFF, 0x1A, 0x3C] : List Byte),
      refusal (start 0x0300 [op]) = some (.undefinedOpcode op) := by decide

/-- Decision D31: a JSR that pushes onto its own operand bytes. -/
theorem test_jsr_over_itself :
    refusal (start 0x01FC [0x20, 0x00, 0x04]) = some (.pushOverOperand 0x01FC) := by decide

/-- 00_scope.md R12: a jump to its own address ends a run; one elsewhere does not. -/
theorem test_selfLoop :
    selfLoop (start 0x0300 [0x4C, 0x00, 0x03]) = true ∧ selfLoop (start 0x0300 [0x4C, 0x76, 0x12]) = false := by decide

/-- Decision D25: a run has not ended where a reset is due, or where an IRQ may still be taken right after SEI. -/
theorem test_selfLoop_interruptible :
    selfLoop { start 0x0300 [0x4C, 0x00, 0x03] with resetDue := true } = false ∧
    selfLoop { start 0x0300 [0x4C, 0x00, 0x03] with
      irqLine := true, boundary := .afterMaskChange false, p := ⟨false, false, false, true, false, false⟩ } = false ∧
    selfLoop { start 0x0300 [0x4C, 0x00, 0x03] with
      irqLine := true, p := ⟨false, false, false, true, false, false⟩ } = true := by decide

/-- R260, decision D18: an NMI edge inside the reset sequence leaves no request. -/
theorem test_nmi_inside_reset :
    (ran { atBoundary 0x1234 0x80 ⟨true, true, true, false, true, true⟩ with
      resetDue := true, schedule := [.cpu ⟨true, false, false⟩ []] }).map (fun t => (t.pc, t.nmiPending, t.nmiLine)) =
      some (0x8000, false, false) := by decide

/-- R228: an NMI edge inside an instruction is latched. -/
theorem test_nmi_inside_instruction :
    (ran { start 0x0300 [0xEA] with schedule := [.cpu ⟨true, false, false⟩ []] }).map
      (fun t => (t.pc, t.nmiPending, t.nmiLine)) = some (0x0301, true, false) := by decide

/-- The memory of the reset state is canonical. -/
theorem reset_memory_wf : Memory.wf State.reset.mem := by decide

/-- The instruction placed for the host is the one the next step runs. -/
theorem test_withFetchWord :
    (ran (State.reset.withFetchWord 16 0x7FA9)).map (fun t => (t.a, t.pc)) = some (0x7F, 0x0002) := by decide

/-! For each statement with hypotheses, a state that meets them -/

/-- A platform with ROM, a device register and a hole. -/
def board : Platform := ⟨.r6502, [⟨0x8000, 0x8000, .rom⟩, ⟨0x4000, 1, .device⟩, ⟨0x5000, 0x1000, .unpopulated⟩]⟩

/-- StaStoresAccumulator, StxStyStoreIndexes, ShiftsMoveBitIntoCarry, RotatesGoThroughCarry, IncDecStepMemory,
PhaPushesAccumulator, PhpPushesStatus, WritesReachRamOnly: every kind of address, at the ends of its region. -/
theorem witness_stores :
    ({ start 0x0300 [] with platform := board }).kind 0x7FFF = .ram ∧
    ({ start 0x0300 [] with platform := board }).kind 0x8000 = .rom ∧
    ({ start 0x0300 [] with platform := board }).kind 0xFFFF = .rom ∧
    ({ start 0x0300 [] with platform := board }).kind 0x4000 = .device ∧
    ({ start 0x0300 [] with platform := board }).kind 0x4001 = .ram ∧
    ({ start 0x0300 [] with platform := board }).kind 0x5000 = .unpopulated ∧
    (start 0x0300 []).loc 0x0201 ≠ (start 0x0300 []).loc 0x0200 := by decide

/-- AdcAdds, SbcSubtracts: binary; decimal with the largest valid operands; decimal with an invalid operand. -/
theorem witness_AdcAdds_SbcSubtracts :
    (start 0x0300 []).p.d = false ∧
    ({ start 0x0300 [] with p := ⟨false, false, true, false, false, true⟩ }).p.d = true ∧
    bcd 0x00 = some 0 ∧ bcd 0x99 = some 99 ∧ bcd 0x9A = none ∧ bcd 0xA0 = none := by decide

/-- JsrPushesReturnAddress: operand bytes next to the pushed ones, and one of them on a pushed one. -/
theorem witness_JsrPushesReturnAddress :
    (∀ k ∈ [1, 2], ∀ sp ∈ [(start 0x01FB []).sp, (start 0x01FB []).sp - 1],
      (start 0x01FB []).loc ((start 0x01FB []).pc + BitVec.ofNat 16 k) ≠ (start 0x01FB []).loc (page1 sp)) ∧
    (∃ k ∈ [1, 2], ∃ sp ∈ [(start 0x01FC []).sp, (start 0x01FC []).sp - 1],
      (start 0x01FC []).loc ((start 0x01FC []).pc + BitVec.ofNat 16 k) = (start 0x01FC []).loc (page1 sp)) := by decide

/-- JsrThenRtsReturns, with a stack that wraps. -/
theorem witness_JsrThenRtsReturns :
    StackRam 2 { start 0x0300 [] with sp := 0x00 } ∧
      ∃ t, exec (.jsr 0x0400) { start 0x0300 [] with sp := 0x00 } = .next t := by
  unfold StackRam
  exact ⟨by decide, _, rfl⟩

/-- PhpThenPlpRestoresFlags. -/
theorem witness_PhpThenPlpRestoresFlags : StackRam 1 (start 0x0300 []) ∧ ∃ t, exec .php (start 0x0300 []) = .next t := by
  unfold StackRam
  exact ⟨by decide, _, rfl⟩

/-- BrkEntersHandler: with no NMI edge inside, and with one. -/
theorem witness_BrkEntersHandler :
    (start 0x0300 []).during.nmiFalls = false ∧
    ({ start 0x0300 [] with during := ⟨true, false, false⟩ }).during.nmiFalls = true ∧
    (start 0x0300 []).nmiLine = true ∧ hasNmi (start 0x0300 []).platform.dev = true := by decide

/-- IrqSequenceStacksAndMasks: an ordinary boundary, and the one right after a CLI that changed nothing. -/
theorem witness_IrqSequenceStacksAndMasks :
    (AtBoundary { start 0x0300 [] with irqLine := true } ∧ chooseAct { start 0x0300 [] with irqLine := true } = .irqSequence) ∧
    (AtBoundary { start 0x0300 [] with irqLine := true, boundary := .afterMaskChange false } ∧
      ({ start 0x0300 [] with irqLine := true, boundary := .afterMaskChange false }).p.i = false) := by
  unfold AtBoundary Alone
  decide

/-- NmiSequenceIgnoresMask: with `I` set and IRQ low too. -/
theorem witness_NmiSequenceIgnoresMask :
    AtBoundary { start 0x0300 [] with nmiPending := true, irqLine := true, p := ⟨false, false, false, true, false, false⟩ } ∧
    chooseAct { start 0x0300 [] with nmiPending := true, irqLine := true, p := ⟨false, false, false, true, false, false⟩ } =
      .nmiSequence := by
  unfold AtBoundary Alone
  decide

/-- InterruptThenRtiResumes, with a frame that wraps. -/
theorem witness_InterruptThenRtiResumes : StackRam 3 { start 0x0300 [] with sp := 0x01 } := by
  unfold StackRam
  decide

/-- InterruptRecognitionFollowsMask: each clause. -/
theorem witness_InterruptRecognitionFollowsMask :
    ({ start 0x0300 [] with res := false }).res = false ∧
    chooseAct { start 0x0300 [] with resetDue := true, rdy := false } = .resetSequence ∧
    chooseAct { start 0x0300 [] with rdy := false, nmiPending := true } = .idle ∧
    chooseAct { start 0x0300 [] with nmiPending := true, boundary := .afterMaskChange true } = .nmiSequence ∧
    chooseAct { start 0x0300 [] with boundary := .afterSequence } = .instruction ∧
    chooseAct { start 0x0300 [] with irqLine := true, boundary := .afterSequence } = .irqSequence := by decide

/-- ResetSequenceLoadsVector: RDY low does not hold it. -/
theorem witness_ResetSequenceLoadsVector :
    Alone { start 0x0300 [] with resetDue := true, rdy := false } ∧ (start 0x0300 []).res = true ∧
    hasNmi (start 0x0300 []).platform.dev = true := by
  unfold Alone
  decide

/-- HeldCpuChangesNothing: RES low, and RDY low. -/
theorem witness_HeldCpuChangesNothing :
    (Alone { start 0x0300 [] with res := false } ∧ ({ start 0x0300 [] with res := false }).res = false) ∧
    (Alone { start 0x0300 [] with rdy := false } ∧ ({ start 0x0300 [] with rdy := false }).rdy = false ∧
      ({ start 0x0300 [] with rdy := false }).resetDue = false) := by
  unfold Alone
  decide

/-- SoEdgeSetsOverflow: an edge inside a NOP. -/
theorem witness_SoEdgeSetsOverflow :
    hasSo (start 0x0300 [0xEA]).platform.dev = true ∧ (start 0x0300 [0xEA]).soLine = true ∧
    actWritesV (beginStep ⟨false, true, false⟩ [] (start 0x0300 [0xEA])) = false ∧
    (match cpuStep ⟨false, true, false⟩ [] (start 0x0300 [0xEA]) with
     | .next t => t.p.v && !t.soLine
     | .fault _ => false
     | .refused _ => false) = true := by decide

/-- NmiEdgesAreMerged: a device with NMI, its pin high or low, and one without; an edge inside NOP, inside BRK, inside
an IRQ sequence and inside the reset sequence. -/
theorem witness_NmiEdgesAreMerged :
    hasNmi (start 0x0300 []).platform.dev = true ∧ (start 0x0300 []).nmiLine = true ∧
    ({ start 0x0300 [] with nmiLine := false }).nmiLine = false ∧ hasNmi .r6504 = false ∧
    (∀ s ∈ [start 0x0300 [0xEA], start 0x0300 [0x00], { start 0x0300 [] with irqLine := true },
        { start 0x0300 [] with resetDue := true }],
      (match cpuStep ⟨true, false, false⟩ [] s with
       | .next _ => true
       | .fault _ => false
       | .refused _ => false) = true) ∧
    chooseAct (beginStep ⟨true, false, false⟩ [] (start 0x0300 [0x00])) = .instruction ∧
    chooseAct (beginStep ⟨true, false, false⟩ [] { start 0x0300 [] with irqLine := true }) = .irqSequence ∧
    chooseAct (beginStep ⟨true, false, false⟩ [] { start 0x0300 [] with resetDue := true }) = .resetSequence := by decide

/-- DmaOnlyWhileBusIsFree: both pins high, RDY low, RES low. -/
theorem witness_DmaOnlyWhileBusIsFree :
    ((start 0x0300 []).rdy && (start 0x0300 []).res) = true ∧
    (({ start 0x0300 [] with rdy := false }).rdy && ({ start 0x0300 [] with rdy := false }).res) = false ∧
    (({ start 0x0300 [] with res := false }).rdy && ({ start 0x0300 [] with res := false }).res) = false := by decide

/-- DmaInsideStepOrdersReads: a device with RDY and one without, RAM, and roles before and after the write's. -/
theorem witness_DmaInsideStepOrdersReads :
    hasRdy (start 0x0300 []).platform.dev = true ∧ (start 0x0300 []).kind 0x0010 = .ram ∧
    slotRank .pointerHigh < slotRank .data ∧ ¬ slotRank .data < slotRank .data ∧ hasRdy .r6503 = false := by decide

/-- Two bytes of a pointer split by a DMA write (20_memory.md R58, R62): the low byte is read before it, the high byte
after it. LDA ($10),Y. -/
theorem test_dma_between_pointer_bytes :
    (ran { holding 0x0011 0x20 (holding 0x0010 0x05 (start 0x0300 [0xB1, 0x10])) with
      schedule := [.cpu During.none [⟨.pointerHigh, 0x0011, 0x30⟩, ⟨.pointerHigh, 0x0010, 0x99⟩,
        ⟨.data, 0x3005, 0x77⟩, ⟨.write, 0x3005, 0x78⟩]] }).map (fun t => (t.a, t.byteAt 0x0010, t.byteAt 0x3005)) =
      some (0x77, 0x99, 0x78) := by decide

/-- A DMA write between the read and the write of INC $10 is overwritten (20_memory.md R62 d, R58). -/
theorem test_dma_inside_inc :
    (ran { holding 0x0010 0x05 (start 0x0300 [0xE6, 0x10]) with
      schedule := [.cpu During.none [⟨.write, 0x0010, 0x99⟩, ⟨.write, 0x0011, 0x98⟩]] }).map
        (fun t => (t.byteAt 0x0010, t.byteAt 0x0011)) = some (0x06, 0x98) := by decide

/-- A DMA write after BRK has pushed replaces a pushed byte and the second vector byte (20_memory.md R62 d). -/
theorem test_dma_after_pushes :
    (ran { holding 0xFFFF 0x80 (start 0x0300 [0x00]) with
      schedule := [.cpu During.none [⟨.vectorHigh, 0xFFFF, 0x90⟩, ⟨.vectorLow, 0x01FF, 0x55⟩]] }).map
        (fun t => (t.pc, t.byteAt 0x01FF, t.byteAt 0x01FE)) = some (0x9000, 0x55, 0x02) := by decide

/-- AbsentAddressLinesAlias: two addresses of an R6507 that differ in the three absent lines only. -/
theorem witness_AbsentAddressLinesAlias :
    (0xFFFC : Addr).toNat % 2 ^ addrBits .r6507 = (0x1FFC : Addr).toNat % 2 ^ addrBits .r6507 ∧
    (0xFFFC : Addr) ≠ 0x1FFC ∧ ({ start 0x0300 [] with platform := ⟨.r6507, []⟩ }).kind 0xFFFC = .ram := by decide

/-- StoreSeenByNextFetch. -/
theorem witness_StoreSeenByNextFetch :
    (start 0x0300 []).kind ((start 0x0300 []).pc + 3) = .ram ∧
      ∃ t, exec (.staAbs ((start 0x0300 []).pc + 3)) (start 0x0300 []) = .next t := ⟨by decide, _, rfl⟩

/-- StepRunsDecodedInstruction: a NOP that runs, and a JSR that is refused. -/
theorem witness_StepRunsDecodedInstruction :
    ((start 0x0300 [0xEA]).aboutToExecute ∧ decode (fetchBytes (start 0x0300 [0xEA])) = .ok (.nop, []) ∧
      Instr.nop.wellFormed = true) ∧
    ((start 0x01FC [0x20, 0x00, 0x04]).aboutToExecute ∧
      decode (fetchBytes (start 0x01FC [0x20, 0x00, 0x04])) = .ok (.jsr 0x0400, []) ∧
      exec (.jsr 0x0400) (start 0x01FC [0x20, 0x00, 0x04]) = .refused (.pushOverOperand 0x01FC)) :=
  ⟨⟨by decide, by decide, by decide⟩, by decide, by decide, rfl⟩

/-- FetchReadsConsecutiveBytes: an instruction that wraps past the top of memory. -/
theorem witness_FetchReadsConsecutiveBytes :
    ∀ k < (encode (.ldaAbs 0x1234)).length,
      (start 0xFFFE [0xAD, 0x34, 0x12]).kind ((start 0xFFFE [0xAD, 0x34, 0x12]).pc + BitVec.ofNat 16 k) = .ram ∧
      some ((start 0xFFFE [0xAD, 0x34, 0x12]).byteAt ((start 0xFFFE [0xAD, 0x34, 0x12]).pc + BitVec.ofNat 16 k)) =
        (encode (.ldaAbs 0x1234))[k]? := by decide

/-- DecodeInvertsEncode. -/
theorem witness_DecodeInvertsEncode : (Instr.jsr 0x0400).wellFormed = true := by decide

/-- EncodeInvertsDecode, with a byte left over. -/
theorem witness_EncodeInvertsDecode : decode [0x20, 0x00, 0x04, 0xEA] = .ok (.jsr 0x0400, [0xEA]) := by decide

/-- UndefinedOpcodesAreTheListed105: the least and the greatest of the list. -/
theorem witness_UndefinedOpcodesAreTheListed105 :
    ((start 0x0300 [0x02]).aboutToExecute ∧ decode [0x02] = .error (.undefinedOpcode 0x02)) ∧
    ((start 0x0300 [0xFF]).aboutToExecute ∧ decode [0xFF] = .error (.undefinedOpcode 0xFF)) := by decide

/-- The state an instruction leads to, where there is one. -/
def execd (i : Instr) (s : State) : Option State :=
  match exec i s with
  | .next t => some t
  | .fault _ => none
  | .refused _ => none

/-- RegistersHaveTheirWriters: each register and flag does change somewhere. -/
theorem witness_RegistersHaveTheirWriters :
    (execd (.ldaImm 0x80) (start 0x0300 [])).map (fun t => (t.a, t.p.n)) = some (0x80, true) ∧
    (execd (.ldxImm 0x01) (start 0x0300 [])).map State.x = some 0x01 ∧
    (execd (.ldyImm 0x01) (start 0x0300 [])).map State.y = some 0x01 ∧
    (execd .txs (start 0x0300 [])).map State.sp = some 0x00 ∧
    (execd .sei (start 0x0300 [])).map (fun t => t.p.i) = some true ∧
    (execd .sed (start 0x0300 [])).map (fun t => t.p.d) = some true ∧
    (execd (.bitZp 0x10) (holding 0x0010 0x40 (start 0x0300 []))).map (fun t => t.p.v) = some true ∧
    (execd .sec (start 0x0300 [])).map (fun t => t.p.c) = some true := by decide

/-- MemoryHasItsWriters: a store that changes memory, and an instruction other than BRK. -/
theorem witness_MemoryHasItsWriters :
    (execd (.staZp 0x10) { start 0x0300 [] with a := 0x01 }).map State.mem = some [(0x10, 0x01)] ∧
    (start 0x0300 []).mem = [] ∧ Instr.staZp 0x10 ≠ .brk := by decide

/-- OnlyTwoThingsAreRefused: an empty schedule and one with a CPU turn, each refused. -/
theorem witness_OnlyTwoThingsAreRefused :
    (start 0x0300 [0x02]).schedule = [] ∧ refusal (start 0x0300 [0x02]) = some (.undefinedOpcode 0x02) ∧
    refusal { start 0x0300 [0xEA] with schedule := [.cpu ⟨false, true, false⟩ [⟨.opcode, 0x0300, 0x02⟩]] } =
      some (.undefinedOpcode 0x02) := by decide

/-- CyclesBetweenTwoAndSeven: the index carries, or does not, at the ends of the range, and a branch to each page. -/
theorem witness_CyclesBetweenTwoAndSeven :
    cyclesOf (.ldaAbsX 0x12FF) { start 0x0300 [] with x := 0x01 } = 5 ∧
    cyclesOf (.ldaAbsX 0x12FE) { start 0x0300 [] with x := 0x01 } = 4 ∧
    cyclesOf (.ldyAbsX 0xFFFF) { start 0x0300 [] with x := 0x01 } = 5 ∧
    cyclesOf (.sbcIndY 0xFF) (holding 0x00FF 0xFF { start 0x0300 [] with y := 0x01 }) = 6 ∧
    cyclesOf (.bne 0x7F) (start 0x037E []) = 3 ∧ cyclesOf (.bne 0x80) (start 0x0300 []) = 4 ∧
    cyclesOf (.beq 0x80) (start 0x0300 []) = 2 := by decide

/-- StepKeepsInvariant: a store on a device without NMI, RDY and SO, and an environment step. -/
theorem witness_StepKeepsInvariant :
    ({ start 0x0300 [0x8D, 0x00, 0x02] with a := 0x5A, platform := ⟨.r6504, []⟩ }).Inv ∧
    (ran { start 0x0300 [0x8D, 0x00, 0x02] with a := 0x5A, platform := ⟨.r6504, []⟩ }).isSome = true ∧
    (ran { start 0x0300 [] with schedule := [.env (.setNmi false)] }).isSome = true := by decide

/-- PlatformIsFixed: a CPU step inside which RES falls. -/
theorem witness_PlatformIsFixed :
    (ran { start 0x0300 [0xEA] with schedule := [.cpu ⟨false, false, true⟩ []] }).map
      (fun t => (t.res, t.schedule.length)) = some (false, 0) := by decide

/-- AbandonedWritesAreOldOrNew: a store that RES cuts off. -/
theorem witness_AbandonedWritesAreOldOrNew :
    (∃ t, cpuStep ⟨false, false, false⟩ [] { start 0x0300 [0x85, 0x10] with a := 0x5A } = .next t) ∧
    (∃ u, cpuStep ⟨false, false, true⟩ [] { start 0x0300 [0x85, 0x10] with a := 0x5A } = .next u) := ⟨⟨_, rfl⟩, ⟨_, rfl⟩⟩

/-- RunFromVectorAfterRes. -/
theorem witness_RunFromVectorAfterRes :
    ({ start 0x0300 [] with res := false, schedule := [.env (.setRes true)] }).res = false ∧
    ({ start 0x0300 [] with res := false, schedule := [.env (.setRes true)] }).schedule = [.env (.setRes true)] ∧
    ({ start 0x0300 [] with res := false, schedule := [.env (.setRes true)] }).during = During.none := by decide

end Sys2Proof.Tests
end

section
/-! SUPPORT. What no instruction, no interrupt sequence and no DMA write inside a step changes: the pin levels of IRQ,
RDY and RES, the platform and the turns to come (00_scope.md R5, R7; 10_state.md R39). -/

namespace Sys2Proof.Machine

open Sys2Proof.Stmt

/-! An answer of `exec` that keeps the pins, for each shared meaning -/

/-- Where the result is a next state, that state has the pins, the platform and the turns to come of `s`. -/
def KeepsPins (s : State) (r : Result) : Prop := ∀ t, r = .next t → SamePins s t

section

variable {s t u : State}

theorem next_keepsPins (h : SamePins s t) : KeepsPins s (.next t) := by
  rintro _ ⟨⟩
  exact h

theorem refused_keepsPins (r : Refusal) : KeepsPins s (.refused r) := by
  intro t h
  cases h

theorem done_keepsPins (h : SamePins s u) : KeepsPins s (done u) := next_keepsPins h

theorem maskChanged_keepsPins (h : SamePins s u) : KeepsPins s (maskChanged s u) := next_keepsPins h

theorem addWithCarry_keepsPins (n : Nat) (m : Byte) (s : State) : KeepsPins s (addWithCarry n m s) := by
  cases hd : s.p.d
  · rw [addWithCarry_binary n m s hd]
    exact done_keepsPins (by simp [SamePins, binaryResult])
  · rw [addWithCarry_decimal n m s hd]
    exact done_keepsPins (by simp [SamePins, decimalResult])

theorem subWithBorrow_keepsPins (n : Nat) (m : Byte) (s : State) : KeepsPins s (subWithBorrow n m s) := by
  cases hd : s.p.d
  · rw [subWithBorrow_binary n m s hd]
    exact done_keepsPins (by simp [SamePins, binaryResult])
  · rw [subWithBorrow_decimal n m s hd]
    exact done_keepsPins (by simp [SamePins, decimalResult])

theorem loadA_keepsPins (n : Nat) (m : Byte) (h : SamePins s u) : KeepsPins s (loadA n m u) := next_keepsPins h

theorem loadX_keepsPins (n : Nat) (m : Byte) (s : State) : KeepsPins s (loadX n m s) :=
  done_keepsPins (by simp [SamePins])

theorem loadY_keepsPins (n : Nat) (m : Byte) (s : State) : KeepsPins s (loadY n m s) :=
  done_keepsPins (by simp [SamePins])

theorem store_keepsPins (n : Nat) (ea : Addr) (v : Byte) (s : State) : KeepsPins s (store n ea v s) :=
  done_keepsPins (by simp [SamePins])

theorem logicA_keepsPins (n : Nat) (r : Byte) (s : State) : KeepsPins s (logicA n r s) :=
  done_keepsPins (by simp [SamePins])

theorem bitTest_keepsPins (n : Nat) (m : Byte) (s : State) : KeepsPins s (bitTest n m s) :=
  done_keepsPins (by simp [SamePins])

theorem compare_keepsPins (reg : Byte) (n : Nat) (m : Byte) (s : State) : KeepsPins s (compare reg n m s) :=
  done_keepsPins (by simp [SamePins])

theorem shiftA_keepsPins (f : Byte → Byte × Bool) (s : State) : KeepsPins s (shiftA f s) :=
  done_keepsPins (by simp [SamePins])

theorem shiftMem_keepsPins (n : Nat) (ea : Addr) (f : Byte → Byte × Bool) (s : State) :
    KeepsPins s (shiftMem n ea f s) :=
  done_keepsPins (by simp [SamePins])

theorem stepMem_keepsPins (n : Nat) (ea : Addr) (delta : Byte) (s : State) : KeepsPins s (stepMem n ea delta s) :=
  done_keepsPins (by simp [SamePins])

theorem indexX_keepsPins (r : Byte) (s : State) : KeepsPins s (indexX r s) :=
  done_keepsPins (by simp [SamePins])

theorem indexY_keepsPins (r : Byte) (s : State) : KeepsPins s (indexY r s) :=
  done_keepsPins (by simp [SamePins])

theorem branch_keepsPins (cond : Bool) (r : Byte) (s : State) : KeepsPins s (branch cond r s) := by
  rw [branch_next]
  exact next_keepsPins (by simp [SamePins])

theorem execJsr_keepsPins (w : Addr) (s : State) : KeepsPins s (execJsr w s) := by
  unfold execJsr
  split
  · exact refused_keepsPins _
  · exact done_keepsPins (by simp [SamePins])

/-- Taking an interrupt changes no level but NMI's, which an edge that redirects the sequence moves (60_exceptions.md
R230, R239). -/
theorem interruptEntry_samePins (vector : Addr) (b : Bool) (s : State) : SamePins s (interruptEntry vector b s) := by
  cases h : s.nmiRedirects vector
  · rw [interruptEntry_eq vector b s h]
    simp [SamePins]
  · rw [interruptEntry_redirected vector b s h]
    simp [SamePins]

/-- No instruction changes a level other than NMI's, the platform or the turns to come. -/
theorem exec_keepsPins (i : Instr) (s : State) : KeepsPins s (exec i s) := by
  cases i with
  | adcIndX | adcZp | adcImm | adcAbs | adcIndY | adcZpX | adcAbsY | adcAbsX => exact addWithCarry_keepsPins _ _ s
  | sbcIndX | sbcZp | sbcImm | sbcAbs | sbcIndY | sbcZpX | sbcAbsY | sbcAbsX => exact subWithBorrow_keepsPins _ _ s
  | andIndX | andZp | andImm | andAbs | andIndY | andZpX | andAbsY | andAbsX
  | oraIndX | oraZp | oraImm | oraAbs | oraIndY | oraZpX | oraAbsY | oraAbsX
  | eorIndX | eorZp | eorImm | eorAbs | eorIndY | eorZpX | eorAbsY | eorAbsX => exact logicA_keepsPins _ _ s
  | bitZp | bitAbs => exact bitTest_keepsPins _ _ s
  | cmpIndX | cmpZp | cmpImm | cmpAbs | cmpIndY | cmpZpX | cmpAbsY | cmpAbsX
  | cpxImm | cpxZp | cpxAbs | cpyImm | cpyZp | cpyAbs => exact compare_keepsPins _ _ _ s
  | aslAcc | lsrAcc | rolAcc | rorAcc => exact shiftA_keepsPins _ s
  | aslZp | aslAbs | aslZpX | aslAbsX | lsrZp | lsrAbs | lsrZpX | lsrAbsX
  | rolZp | rolAbs | rolZpX | rolAbsX | rorZp | rorAbs | rorZpX | rorAbsX => exact shiftMem_keepsPins _ _ _ s
  | incZp | incAbs | incZpX | incAbsX | decZp | decAbs | decZpX | decAbsX => exact stepMem_keepsPins _ _ _ s
  | inx | dex => exact indexX_keepsPins _ s
  | iny | dey => exact indexY_keepsPins _ s
  | bcc | bcs | beq | bmi | bne | bpl | bvc | bvs => exact branch_keepsPins _ _ s
  | ldaIndX | ldaZp | ldaImm | ldaAbs | ldaIndY | ldaZpX | ldaAbsY | ldaAbsX | txa | tya | pla =>
    exact loadA_keepsPins _ _ (by simp [SamePins])
  | ldxImm | ldxZp | ldxAbs | ldxZpY | ldxAbsY | tax | tsx => exact loadX_keepsPins _ _ s
  | ldyImm | ldyZp | ldyAbs | ldyZpX | ldyAbsX | tay => exact loadY_keepsPins _ _ s
  | staIndX | staZp | staAbs | staIndY | staZpX | staAbsY | staAbsX
  | stxZp | stxAbs | stxZpY | styZp | styAbs | styZpX => exact store_keepsPins _ _ _ s
  | clc | sec | cld | sed | clv | nop | txs | jmpAbs | jmpInd | pha | php | rts =>
    exact done_keepsPins (by simp [SamePins])
  | cli | sei | plp => exact maskChanged_keepsPins (by simp [SamePins])
  | jsr => exact execJsr_keepsPins _ s
  | brk => exact next_keepsPins (interruptEntry_samePins irqVector true (s.advance 2))
  | rti => exact done_keepsPins (by simp [SamePins, returnFromInterrupt])

/-! A CPU step -/

/-- The platform, the levels of IRQ, RDY and RES and the turns to come are as they were. Weaker than `SamePins`, since a
reset sequence serves the due reset. -/
structure SameLevels (s t : State) : Prop where
  platform : t.platform = s.platform
  irqLine : t.irqLine = s.irqLine
  rdy : t.rdy = s.rdy
  res : t.res = s.res
  schedule : t.schedule = s.schedule

theorem SameLevels.refl (s : State) : SameLevels s s := ⟨rfl, rfl, rfl, rfl, rfl⟩

theorem SameLevels.trans (h : SameLevels s t) (k : SameLevels t u) : SameLevels s u :=
  ⟨k.platform.trans h.platform, k.irqLine.trans h.irqLine, k.rdy.trans h.rdy, k.res.trans h.res,
    k.schedule.trans h.schedule⟩

theorem sameLevels_of_samePins (h : SamePins s t) : SameLevels s t := by
  obtain ⟨irqLine, rdy, res, -, -, platform, schedule, -⟩ := h
  exact ⟨platform, irqLine, rdy, res, schedule⟩

theorem beginStep_sameLevels (d : During) (dma : List DmaWrite) (s : State) : SameLevels s (beginStep d dma s) := by
  rw [beginStep_eq]
  exact ⟨rfl, rfl, rfl, rfl, rfl⟩

theorem dmaAfterWrites_sameLevels (dma : List DmaWrite) (s : State) : SameLevels s (dmaAfterWrites dma s) := by
  rw [dmaAfterWrites_eq]
  exact ⟨rfl, rfl, rfl, rfl, rfl⟩

theorem instructionStep_sameLevels (h : instructionStep s = .next t) : SameLevels s t := by
  unfold instructionStep runInstr at h
  split at h
  next i _ =>
    split at h
    next u he =>
      cases h
      have hu : SameLevels s u := sameLevels_of_samePins (exec_keepsPins i s u he)
      exact ⟨hu.platform, hu.irqLine, hu.rdy, hu.res, hu.schedule⟩
    next => cases h
    next => cases h
  next => cases h

/-- Whatever the CPU chooses to do, it changes none of the levels of `SameLevels`. -/
theorem act_sameLevels (h : act s = .next t) : SameLevels s t := by
  unfold act at h
  cases hc : chooseAct s <;> rw [hc] at h
  case idle => cases h; exact .refl s
  case resetSequence => cases h; exact ⟨rfl, rfl, rfl, rfl, rfl⟩
  case nmiSequence =>
    cases h
    exact sameLevels_of_samePins (interruptEntry_samePins nmiVector false { s with nmiPending := false })
  case irqSequence => cases h; exact sameLevels_of_samePins (interruptEntry_samePins irqVector false s)
  case instruction => exact instructionStep_sameLevels h

/-- RES is low after a step inside which it falls, and as the step left it after any other (70_reset_and_hazards.md
R261). -/
theorem settle_res (w : Bool) (before after : State) :
    (settle w before after).res = if before.during.resFalls then false else after.res := by
  unfold settle resInside
  rw [soInside_eq, nmiInside_eq]
  split <;> rfl

/-- A CPU step that answers a next state: what its act leaves, with the DMA writes and the edges inside it applied. -/
theorem cpuStep_next (d : During) (dma : List DmaWrite) (h : cpuStep d dma s = .next t) :
    ∃ after, act (beginStep d dma s) = .next after ∧
      t = settle (actWritesV (beginStep d dma s)) (beginStep d dma s) (dmaAfterWrites dma after) := by
  unfold cpuStep at h
  dsimp only at h
  split at h
  next after ha => cases h; exact ⟨after, ha, rfl⟩
  next => cases h
  next => cases h

/-- A CPU step moves none of the levels of IRQ and RDY, and of RES only down. -/
theorem cpuStep_levels (d : During) (dma : List DmaWrite) (h : cpuStep d dma s = .next t) :
    t.platform = s.platform ∧ t.irqLine = s.irqLine ∧ t.rdy = s.rdy ∧
      (t.res ≠ s.res → s.res = true ∧ t.res = false) ∧ t.schedule = s.schedule := by
  obtain ⟨after, ha, rfl⟩ := cpuStep_next d dma h
  have hl : SameLevels s (dmaAfterWrites dma after) :=
    ((beginStep_sameLevels d dma s).trans (act_sameLevels ha)).trans (dmaAfterWrites_sameLevels dma after)
  rw [settle_platform, settle_irqLine, settle_rdy, settle_res, settle_schedule]
  refine ⟨hl.platform, hl.irqLine, hl.rdy, fun hne => ?_, hl.schedule⟩
  rw [hl.res] at hne ⊢
  split at hne
  next falls => exact ⟨by simpa using hne.symm, if_pos falls⟩
  next => exact absurd rfl hne

end

/-! A step of the environment, and the step of the machine -/

/-- No pin level and no DMA write changes the device or the memory map. -/
theorem envStep_platform (e : EnvStep) (s : State) : (envStep e s).platform = s.platform := by
  cases e with
  | setIrq => rfl
  | setNmi => simp only [envStep, setNmi]; split <;> rfl
  | setSo => simp only [envStep, setSo]; split <;> rfl
  | setRdy => simp only [envStep, setRdy]; split <;> rfl
  | setRes => rfl
  | dma a v =>
    simp only [envStep, dmaWrite]
    split
    · rfl
    · exact State.memWrite_platform s a v

/-- Settles O57: a turn of the environment keeps the platform (`envStep_platform`), and the CPU's turn, scheduled or
not, keeps it with the levels (`cpuStep_levels`). -/
theorem platformIsFixed : Obligations.PlatformIsFixed := by
  unfold Obligations.PlatformIsFixed
  intro s t h
  unfold step turn at h
  split at h
  next hs =>
    obtain ⟨hp, hi, hr, hres, hsch⟩ := cpuStep_levels _ _ h
    exact ⟨hp, fun _ => ⟨hi, hr, hres, by rw [hsch, hs]; rfl⟩⟩
  next e rest hs =>
    cases h
    exact ⟨envStep_platform e _, fun hne => absurd (by rw [hs]; rfl) (hne e)⟩
  next d dma rest hs =>
    obtain ⟨hp, hi, hr, hres, hsch⟩ := cpuStep_levels _ _ h
    exact ⟨hp, fun _ => ⟨hi, hr, hres, by rw [hsch, hs]; rfl⟩⟩

end Sys2Proof.Machine
end

section
/-! SUPPORT. What `exec` answers is reached from its state by the named updates of Machine/Ops.lean, so that a property
they keep, every instruction keeps; and what running the instruction at `PC` answers. -/

namespace Sys2Proof.Machine

/-- Where the result is a next state, that state has the property. -/
def Answers (P : State → Prop) (r : Result) : Prop := ∀ t, r = .next t → P t

section

variable {P : State → Prop} {s t u : State}

theorem next_answers (h : P t) : Answers P (.next t) := by
  rintro _ ⟨⟩
  exact h

theorem refused_answers (r : Refusal) : Answers P (.refused r) := by
  intro t h
  cases h

/-! A property that every named update keeps, every instruction keeps -/

/-- Each named update of the state keeps the property, taking an interrupt left aside. -/
structure KeptByUpdates (P : State → Prop) : Prop where
  withA : ∀ {s} v, P s → P (s.withA v)
  withX : ∀ {s} v, P s → P (s.withX v)
  withY : ∀ {s} v, P s → P (s.withY v)
  withSp : ∀ {s} v, P s → P (s.withSp v)
  withPc : ∀ {s} v, P s → P (s.withPc v)
  withP : ∀ {s} v, P s → P (s.withP v)
  memWrite : ∀ {s} a v, P s → P (s.memWrite a v)
  finish : ∀ {s} b, P s → P (s.finish b)

namespace KeptByUpdates

theorem push8 (hP : KeptByUpdates P) (v : Byte) (h : P s) : P (s.push8 v) := hP.withSp _ (hP.memWrite _ _ h)

theorem done (hP : KeptByUpdates P) (h : P u) : Answers P (done u) := next_answers (hP.finish _ h)

/-- The end of an instruction of `n` bytes. -/
theorem advanced (hP : KeptByUpdates P) (n : Nat) (h : P u) : Answers P (Machine.done (u.advance n)) :=
  hP.done (hP.withPc _ h)

/-- The end of an instruction of `n` bytes that writes flags. -/
theorem flagged (hP : KeptByUpdates P) (n : Nat) (p : Flags) (h : P u) :
    Answers P (Machine.done ((u.withP p).advance n)) :=
  hP.advanced n (hP.withP p h)

theorem maskChanged (hP : KeptByUpdates P) (p : Flags) (h : P u) :
    Answers P (maskChanged s ((u.withP p).advance 1)) :=
  next_answers (hP.finish _ (hP.withPc _ (hP.withP _ h)))

theorem addWithCarry (hP : KeptByUpdates P) (n : Nat) (m : Byte) (h : P s) : Answers P (addWithCarry n m s) := by
  unfold Machine.addWithCarry
  split
  · exact hP.flagged n _ (hP.withA _ h)
  · exact hP.flagged n _ (hP.withA _ h)

theorem subWithBorrow (hP : KeptByUpdates P) (n : Nat) (m : Byte) (h : P s) : Answers P (subWithBorrow n m s) := by
  unfold Machine.subWithBorrow
  split
  · exact hP.flagged n _ (hP.withA _ h)
  · exact hP.flagged n _ (hP.withA _ h)

theorem branch (hP : KeptByUpdates P) (cond : Bool) (r : Byte) (h : P s) : Answers P (branch cond r s) := by
  unfold Machine.branch
  split
  · exact hP.done (hP.withPc _ h)
  · exact hP.advanced 2 h

theorem execJsr (hP : KeptByUpdates P) (w : Addr) (h : P s) : Answers P (execJsr w s) := by
  unfold Machine.execJsr
  split
  · exact refused_answers _
  · exact hP.done (hP.withPc _ (hP.push8 _ (hP.push8 _ h)))

end KeptByUpdates

/-- A property that every named update keeps, every instruction keeps; of BRK it is asked that taking an interrupt
keeps it. -/
theorem exec_keeps (hP : KeptByUpdates P) (i : Instr)
    (hbrk : i = .brk → ∀ u, P u → P (interruptEntry irqVector true u)) (h : P s) : Answers P (exec i s) := by
  cases i with
  | adcIndX | adcZp | adcImm | adcAbs | adcIndY | adcZpX | adcAbsY | adcAbsX => exact hP.addWithCarry _ _ h
  | sbcIndX | sbcZp | sbcImm | sbcAbs | sbcIndY | sbcZpX | sbcAbsY | sbcAbsX => exact hP.subWithBorrow _ _ h
  | bcc | bcs | beq | bmi | bne | bpl | bvc | bvs => exact hP.branch _ _ h
  | andIndX | andZp | andImm | andAbs | andIndY | andZpX | andAbsY | andAbsX
  | oraIndX | oraZp | oraImm | oraAbs | oraIndY | oraZpX | oraAbsY | oraAbsX
  | eorIndX | eorZp | eorImm | eorAbs | eorIndY | eorZpX | eorAbsY | eorAbsX
  | ldaIndX | ldaZp | ldaImm | ldaAbs | ldaIndY | ldaZpX | ldaAbsY | ldaAbsX | txa | tya
  | aslAcc | lsrAcc | rolAcc | rorAcc => exact hP.flagged _ _ (hP.withA _ h)
  | ldxImm | ldxZp | ldxAbs | ldxZpY | ldxAbsY | tax | tsx | inx | dex => exact hP.flagged _ _ (hP.withX _ h)
  | ldyImm | ldyZp | ldyAbs | ldyZpX | ldyAbsX | tay | iny | dey => exact hP.flagged _ _ (hP.withY _ h)
  | bitZp | bitAbs
  | cmpIndX | cmpZp | cmpImm | cmpAbs | cmpIndY | cmpZpX | cmpAbsY | cmpAbsX
  | cpxImm | cpxZp | cpxAbs | cpyImm | cpyZp | cpyAbs
  | clc | sec | cld | sed | clv => exact hP.flagged _ _ h
  | aslZp | aslAbs | aslZpX | aslAbsX | lsrZp | lsrAbs | lsrZpX | lsrAbsX
  | rolZp | rolAbs | rolZpX | rolAbsX | rorZp | rorAbs | rorZpX | rorAbsX
  | incZp | incAbs | incZpX | incAbsX | decZp | decAbs | decZpX | decAbsX =>
    exact hP.flagged _ _ (hP.memWrite _ _ h)
  | staIndX | staZp | staAbs | staIndY | staZpX | staAbsY | staAbsX
  | stxZp | stxAbs | stxZpY | styZp | styAbs | styZpX => exact hP.advanced _ (hP.memWrite _ _ h)
  | pha | php => exact hP.advanced 1 (hP.push8 _ h)
  | pla => exact hP.flagged 1 _ (hP.withA _ (hP.withSp _ h))
  | plp => exact next_answers (hP.finish _ (hP.withPc _ (hP.withSp _ (hP.withP _ h))))
  | cli | sei => exact hP.maskChanged _ h
  | txs => exact hP.advanced 1 (hP.withSp _ h)
  | nop => exact hP.advanced 1 h
  | jmpAbs | jmpInd => exact hP.done (hP.withPc _ h)
  | jsr => exact hP.execJsr _ h
  | rts => exact hP.done (hP.withSp _ (hP.withPc _ h))
  | brk => exact next_answers (hP.finish _ (hbrk rfl _ (hP.withPc _ h)))
  | rti => exact hP.done (hP.withSp _ (hP.withPc _ (hP.withP _ h)))

/-! An instruction executed at `PC` -/

theorem runInstr_next {i : Instr} (h : runInstr i s = .next t) :
    ∃ u, exec i s = .next u ∧ t = { u with cycles := s.cycles + cyclesOf i s } := by
  unfold runInstr at h
  split at h
  next u he => cases h; exact ⟨u, he, rfl⟩
  next => cases h
  next => cases h

theorem instructionStep_next (h : instructionStep s = .next t) :
    ∃ i u, fetchInstr s = .ok i ∧ exec i s = .next u ∧ t = { u with cycles := s.cycles + cyclesOf i s } := by
  unfold instructionStep at h
  split at h
  next i hf =>
    obtain ⟨u, he, ht⟩ := runInstr_next h
    exact ⟨i, u, hf, he, ht⟩
  next => cases h

end

end Sys2Proof.Machine
end

section
/-! SUPPORT. The invariant `State.Inv` (10_state.md R39; 20_memory.md R51; 60_exceptions.md R245): it holds at reset,
and every step keeps it. -/

namespace Sys2Proof.Machine

/-- The part of the invariant that also holds inside a CPU step: memory is canonical and within the device's space, and
absent pins are inactive. -/
def State.Sound (s : State) : Prop := s.memoryOk ∧ s.pinsInactive

section

variable {s t : State}

theorem State.inv_iff : s.Inv ↔ s.Sound ∧ s.during = During.none ∧ s.replaced = [] := and_assoc.symm

/-! What keeps memory and the pins sound -/

theorem memWrite_pinsInactive (a : Addr) (v : Byte) (h : s.pinsInactive) : (s.memWrite a v).pinsInactive := by
  rw [State.memWrite_eq]
  exact h

theorem sound_keptByUpdates : KeptByUpdates State.Sound where
  withA _ h := h
  withX _ h := h
  withY _ h := h
  withSp _ h := h
  withPc _ h := h
  withP _ h := h
  memWrite a v h := ⟨State.memWrite_memoryOk _ a v h.1, memWrite_pinsInactive a v h.2⟩
  finish _ h := h

theorem State.Sound.pushFrame (b : Bool) (h : s.Sound) : (s.pushFrame b).Sound :=
  sound_keptByUpdates.push8 _ (sound_keptByUpdates.push8 _ (sound_keptByUpdates.push8 _ h))

/-- A sequence is redirected only on a device with NMI (60_exceptions.md R239). -/
theorem hasNmi_of_nmiRedirects {vector : Addr} (h : s.nmiRedirects vector = true) : hasNmi s.platform.dev = true := by
  simp only [State.nmiRedirects, Bool.and_eq_true] at h
  obtain ⟨⟨⟨⟨-, hn⟩, -⟩, -⟩, -⟩ := h
  exact hn

/-- Taking an interrupt moves a pin only where an NMI edge redirects it, on a device that has the pin. -/
theorem State.Sound.interruptEntry (vector : Addr) (b : Bool) (h : s.Sound) : (interruptEntry vector b s).Sound := by
  obtain ⟨hm, hi, hn, hr, ho⟩ := h.pushFrame b
  cases hd : s.nmiRedirects vector
  · rw [interruptEntry_eq vector b s hd]
    exact ⟨hm, hi, hn, hr, ho⟩
  · rw [interruptEntry_redirected vector b s hd]
    refine ⟨hm, hi, fun absent => ?_, hr, ho⟩
    rw [State.pushFrame_platform, hasNmi_of_nmiRedirects hd] at absent
    cases absent

theorem exec_sound (i : Instr) (h : s.Sound) : Answers State.Sound (exec i s) :=
  exec_keeps sound_keptByUpdates i (fun _ _ hu => hu.interruptEntry irqVector true) h

theorem instructionStep_sound (h : s.Sound) : Answers State.Sound (instructionStep s) := by
  intro t ht
  obtain ⟨i, u, -, he, rfl⟩ := instructionStep_next ht
  exact exec_sound i h u he

/-- With no request pending the absent pins are still inactive. -/
theorem State.Sound.clearNmi (h : s.Sound) : { s with nmiPending := false }.Sound := by
  obtain ⟨hm, hi, hn, hr, ho⟩ := h
  exact ⟨hm, hi, fun absent => ⟨rfl, (hn absent).2⟩, hr, ho⟩

theorem act_sound (h : s.Sound) : Answers State.Sound (act s) := by
  unfold act
  cases chooseAct s with
  | idle => exact next_answers h
  | resetSequence => exact next_answers h.clearNmi
  | nmiSequence => exact next_answers (h.clearNmi.interruptEntry nmiVector false)
  | irqSequence => exact next_answers (h.interruptEntry irqVector false)
  | instruction => exact instructionStep_sound h

/-! The edges and DMA writes inside a step -/

theorem beginStep_sound (d : During) (dma : List DmaWrite) (h : s.Sound) : (beginStep d dma s).Sound := by
  refine ⟨beginStep_memoryOk d dma s h.1, ?_⟩
  rw [beginStep_eq]
  exact h.2

theorem dmaAfterWrites_sound (dma : List DmaWrite) (h : s.Sound) : (dmaAfterWrites dma s).Sound := by
  refine ⟨dmaAfterWrites_memoryOk dma s h.1, ?_⟩
  rw [dmaAfterWrites_eq]
  exact h.2

theorem setNmi_present (high : Bool) (present : hasNmi s.platform.dev = true) :
    setNmi high s = { s with nmiLine := high, nmiPending := s.nmiPending || (s.nmiLine && !high) } := if_pos present

theorem setNmi_absent (high : Bool) (absent : hasNmi s.platform.dev = false) : setNmi high s = s :=
  if_neg (by simp [absent])

theorem setNmi_sound (high : Bool) (h : s.Sound) : (setNmi high s).Sound := by
  unfold setNmi
  split
  next present =>
    obtain ⟨hm, hi, -, hr, ho⟩ := h
    exact ⟨hm, hi, fun absent => absurd present (by simp [absent]), hr, ho⟩
  next => exact h

theorem setSo_sound (high : Bool) (h : s.Sound) : (setSo high s).Sound := by
  unfold setSo
  split
  next present =>
    obtain ⟨hm, hi, hn, hr, -⟩ := h
    exact ⟨hm, hi, hn, hr, fun absent => absurd present (by simp [absent])⟩
  next => exact h

/-- An NMI edge inside a step does nothing on a device without the pin. -/
theorem nmiInside_absent (before : State) (absent : hasNmi s.platform.dev = false) : nmiInside before s = s := by
  unfold nmiInside
  rw [setNmi_absent false absent]
  split_ifs <;> rfl

theorem nmiInside_sound (before : State) (h : s.Sound) : (nmiInside before s).Sound := by
  cases hn : hasNmi s.platform.dev
  · rwa [nmiInside_absent before hn]
  · obtain ⟨hm, hi, -, hr, ho⟩ := h
    rw [nmiInside_eq]
    exact ⟨hm, hi, fun absent => absurd hn (by simp [absent]), hr, ho⟩

theorem soInside_sound (w : Bool) (before : State) (hp : s.platform = before.platform) (h : s.Sound) :
    (soInside w before s).Sound := by
  unfold soInside
  split
  next edge =>
    have present : hasSo s.platform.dev = true := by
      simp only [Bool.and_eq_true] at edge
      obtain ⟨⟨⟨-, hso⟩, -⟩, -⟩ := edge
      rwa [hp]
    obtain ⟨hm, hi, hn, hr, -⟩ := h
    exact ⟨hm, hi, hn, hr, fun absent => absurd present (by simp [absent])⟩
  next =>
    split
    · exact setSo_sound false h
    · exact h

/-- A step cut off by RES mixes two sound memories (70_reset_and_hazards.md R261). -/
theorem resInside_sound (before : State) (hp : s.platform = before.platform) (hb : before.Sound) (h : s.Sound) :
    (resInside before s).Sound := by
  unfold resInside
  split
  · obtain ⟨⟨hwf, hbound⟩, hpins⟩ := h
    obtain ⟨⟨-, hbefore⟩, -⟩ := hb
    rw [← hp] at hbefore
    exact ⟨⟨Memory.wf_mix _ _ _ hwf, Memory.mix_bound _ _ _ _ hbefore hbound⟩, hpins⟩
  · exact h

theorem settle_inv (w : Bool) (before : State) (hp : s.platform = before.platform) (hb : before.Sound) (h : s.Sound) :
    (settle w before s).Inv := by
  have hnmi : (nmiInside before s).platform = before.platform := by rw [nmiInside_eq, ← hp]
  have hso : (soInside w before (nmiInside before s)).platform = before.platform := by rw [soInside_eq, ← hnmi]
  have edges : (soInside w before (nmiInside before s)).Sound :=
    soInside_sound w before hnmi (nmiInside_sound before h)
  exact State.inv_iff.2 ⟨resInside_sound before hso hb edges, rfl, rfl⟩

theorem cpuStep_inv (d : During) (dma : List DmaWrite) (hs : s.Sound) (h : cpuStep d dma s = .next t) : t.Inv := by
  obtain ⟨after, ha, rfl⟩ := cpuStep_next d dma h
  have hbefore : (beginStep d dma s).Sound := beginStep_sound d dma hs
  have hafter : (dmaAfterWrites dma after).Sound := dmaAfterWrites_sound dma (act_sound hbefore after ha)
  have hp : (dmaAfterWrites dma after).platform = (beginStep d dma s).platform :=
    ((act_sameLevels ha).trans (dmaAfterWrites_sameLevels dma after)).platform
  exact settle_inv _ _ hp hbefore hafter

end

/-! Environment steps -/

theorem envStep_sound (e : EnvStep) {s : State} (h : s.Sound) : (envStep e s).Sound := by
  cases e with
  | setIrq requesting =>
    obtain ⟨hm, -, hn, hr, ho⟩ := h
    exact ⟨hm, fun (absent : hasIrq s.platform.dev = false) => by simp [envStep, setIrq, absent], hn, hr, ho⟩
  | setNmi high => exact setNmi_sound high h
  | setSo high => exact setSo_sound high h
  | setRdy high =>
    simp only [envStep, setRdy]
    split
    next present =>
      obtain ⟨hm, hi, hn, -, ho⟩ := h
      exact ⟨hm, hi, hn, fun absent => absurd present (by simp [absent]), ho⟩
    next => exact h
  | setRes high => exact h
  | dma a v =>
    simp only [envStep, dmaWrite]
    split
    · exact h
    · exact sound_keptByUpdates.memWrite a v h

theorem envStep_during_replaced (e : EnvStep) (s : State) :
    (envStep e s).during = s.during ∧ (envStep e s).replaced = s.replaced := by
  cases e with
  | setIrq | setRes => exact ⟨rfl, rfl⟩
  | setNmi => simp only [envStep, setNmi]; split <;> exact ⟨rfl, rfl⟩
  | setSo => simp only [envStep, setSo]; split <;> exact ⟨rfl, rfl⟩
  | setRdy => simp only [envStep, setRdy]; split <;> exact ⟨rfl, rfl⟩
  | dma => simp only [envStep, dmaWrite]; split <;> simp

theorem envStep_inv (e : EnvStep) {s : State} (h : s.Inv) : (envStep e s).Inv := by
  obtain ⟨hs, hd, hr⟩ := State.inv_iff.1 h
  obtain ⟨hd', hr'⟩ := envStep_during_replaced e s
  exact State.inv_iff.2 ⟨envStep_sound e hs, hd'.trans hd, hr'.trans hr⟩

/-! The step of the machine, and reset -/

/-- Settles O55: the environment's turn keeps the invariant (`envStep_inv`), and the CPU's turn ends in a state that has
it, whatever edges and DMA writes fall inside (`cpuStep_inv`). -/
theorem stepKeepsInvariant : Obligations.StepKeepsInvariant := by
  unfold Obligations.StepKeepsInvariant
  intro s t hs h
  have sound : s.Sound := (State.inv_iff.1 hs).1
  unfold step turn at h
  split at h
  next => exact cpuStep_inv _ _ sound h
  next e rest _ =>
    cases h
    exact envStep_inv e (s := { s with schedule := rest }) hs
  next d dma rest _ => exact cpuStep_inv d dma (s := { s with schedule := rest }) sound h

/-- The state after reset lists no memory and has every pin inactive, on any platform. -/
theorem reset_inv (d : Platform) : { State.reset with platform := d }.Inv :=
  ⟨⟨⟨List.Pairwise.nil, List.forall_mem_nil _⟩, List.forall_mem_nil _⟩,
    ⟨fun _ => rfl, fun _ => ⟨rfl, rfl⟩, fun _ => rfl, fun _ => rfl⟩, rfl, rfl⟩

/-- Settles O56: `State.reset` is the machine after reset on its own platform. -/
theorem resetHasInvariant : Obligations.ResetHasInvariant := by
  unfold Obligations.ResetHasInvariant
  exact ⟨reset_inv State.reset.platform, reset_inv⟩

/-- Settles O35: with no region and no DMA write a read of the vector finds what memory holds. -/
theorem resetStateValues : Obligations.ResetStateValues := by
  unfold Obligations.ResetStateValues
  have vector (k : Slot) (a : Addr) : State.reset.memRead k a = State.reset.byteAt a :=
    State.memRead_ram _ k a rfl rfl
  rw [vector, vector]
  exact ⟨rfl, rfl, rfl, rfl⟩

end Sys2Proof.Machine
end

section
/-! SUPPORT. The instruction at `PC`: what the encoder's bytes decode to, what the fetch reads, and that a step runs it
(10_state.md R25, R26; 30_encoding.md R80 to R84). -/

namespace Sys2Proof.Machine

open Sys2Proof.Stmt

/-! The bytes of an instruction -/

/-- The bytes are an op code of the matrix and, behind it, the operand that makes its form this instruction (R80,
R82). -/
inductive IsEncoding (i : Instr) : List Byte → Prop where
  | bare {op : Byte} (form : formOf op = some (.bare i)) : IsEncoding i [op]
  | byte {op b : Byte} {f : Byte → Instr} (form : formOf op = some (.byte f)) (operand : f b = i) :
      IsEncoding i [op, b]
  | word {op : Byte} {w : Addr} {f : Addr → Instr} (form : formOf op = some (.word f)) (operand : f w = i) :
      IsEncoding i [op, loByte w, hiByte w]

theorem encode_isEncoding (i : Instr) : IsEncoding i (encode i) := by
  cases i with
  | aslAcc | lsrAcc | rolAcc | rorAcc
  | brk | clc | cld | cli | clv | dex | dey | inx | iny | nop | pha | php | pla | plp | rti | rts
  | sec | sed | sei | tax | tay | tsx | txa | txs | tya => exact .bare rfl
  | adcImm | andImm | cmpImm | cpxImm | cpyImm | eorImm | ldaImm | ldxImm | ldyImm | oraImm | sbcImm
  | adcZp | andZp | aslZp | bitZp | cmpZp | cpxZp | cpyZp | decZp | eorZp | incZp | ldaZp | ldxZp | ldyZp | lsrZp
  | oraZp | rolZp | rorZp | sbcZp | staZp | stxZp | styZp
  | adcZpX | andZpX | aslZpX | cmpZpX | decZpX | eorZpX | incZpX | ldaZpX | ldyZpX | lsrZpX | oraZpX | rolZpX | rorZpX
  | sbcZpX | staZpX | styZpX | ldxZpY | stxZpY
  | adcIndX | andIndX | cmpIndX | eorIndX | ldaIndX | oraIndX | sbcIndX | staIndX
  | adcIndY | andIndY | cmpIndY | eorIndY | ldaIndY | oraIndY | sbcIndY | staIndY
  | bcc | bcs | beq | bmi | bne | bpl | bvc | bvs => exact .byte rfl rfl
  | adcAbs | andAbs | aslAbs | bitAbs | cmpAbs | cpxAbs | cpyAbs | decAbs | eorAbs | incAbs | jmpAbs | jsr | ldaAbs
  | ldxAbs | ldyAbs | lsrAbs | oraAbs | rolAbs | rorAbs | sbcAbs | staAbs | stxAbs | styAbs
  | adcAbsX | andAbsX | aslAbsX | cmpAbsX | decAbsX | eorAbsX | incAbsX | ldaAbsX | ldyAbsX | lsrAbsX | oraAbsX
  | rolAbsX | rorAbsX | sbcAbsX | staAbsX
  | adcAbsY | andAbsY | cmpAbsY | eorAbsY | ldaAbsY | ldxAbsY | oraAbsY | sbcAbsY | staAbsY
  | jmpInd => exact .word rfl rfl

theorem IsEncoding.decode {i : Instr} {bytes : List Byte} (h : IsEncoding i bytes) (rest : List Byte) :
    decode (bytes ++ rest) = .ok (i, rest) := by
  cases h with
  | bare form => simp [Sys2Proof.decode, form]
  | byte form operand => simp [Sys2Proof.decode, form, operand]
  | word form operand => simp [Sys2Proof.decode, form, operand]

/-! Fetching it -/

/-- The reads of a fetch stand for the bytes of an instruction: the op code calls for as many operand bytes as the
instruction has. -/
theorem fetchBytes_of_reads {s : State} {i : Instr} {bytes : List Byte} (h : IsEncoding i bytes)
    (reads : ∀ k < bytes.length, ∀ slot, bytes[k]? = some (s.memRead slot (s.pc + BitVec.ofNat 16 k))) :
    fetchBytes s = bytes := by
  have first (slot : Slot) (hn : 0 < bytes.length) : bytes[0]? = some (s.memRead slot s.pc) := by
    simpa using reads 0 hn slot
  cases h with
  | bare form =>
    obtain rfl := by simpa using first .opcode (by simp)
    simp [fetchBytes, opcodeLength, form]
  | byte form operand =>
    obtain rfl := by simpa using first .opcode (by simp)
    obtain rfl := by simpa using reads 1 (by simp) .operand1
    simp [fetchBytes, opcodeLength, form]
  | @word op w f form operand =>
    obtain rfl := by simpa using first .opcode (by simp)
    have b1 : loByte w = s.memRead .operand1 (s.pc + 1) := by simpa using reads 1 (by simp) .operand1
    have b2 : hiByte w = s.memRead .operand2 (s.pc + 2) := by simpa using reads 2 (by simp) .operand2
    simp [fetchBytes, opcodeLength, form, b1, b2]

theorem fetchInstr_of_decode {s : State} {i : Instr} {rest : List Byte} (h : decode (fetchBytes s) = .ok (i, rest)) :
    fetchInstr s = .ok i := by
  simp [fetchInstr, h]

/-- Settles O47: RAM answers each read of the fetch with the encoder's byte (`fetchBytes_of_reads`), and the encoder's
bytes decode to the instruction. -/
theorem fetchReadsConsecutiveBytes : Obligations.FetchReadsConsecutiveBytes := by
  unfold Obligations.FetchReadsConsecutiveBytes
  intro s i hr stored
  have enc : IsEncoding i (encode i) := encode_isEncoding i
  have fetched : fetchBytes s = encode i := by
    refine fetchBytes_of_reads enc fun k hk slot => ?_
    obtain ⟨ram, byte⟩ := stored k hk
    rw [State.memRead_ram s slot _ ram hr, byte]
  refine ⟨fetched, fetchInstr_of_decode (rest := []) ?_⟩
  rw [fetched, ← enc.decode [], List.append_nil]

/-! Running it -/

theorem during_keptByUpdates (d : During) : KeptByUpdates (fun t => t.during = d) where
  withA _ h := h
  withX _ h := h
  withY _ h := h
  withSp _ h := h
  withPc _ h := h
  withP _ h := h
  memWrite a v h := by rwa [State.memWrite_during]
  finish _ h := h

/-- With no edge inside the step no instruction leaves one. -/
theorem exec_during_none (i : Instr) {s : State} (h : s.during = During.none) :
    Answers (fun t => t.during = During.none) (exec i s) := by
  refine exec_keeps (during_keptByUpdates During.none) i (fun _ u hu => ?_) h
  rw [interruptEntry_eq irqVector true u (u.nmiRedirects_none irqVector hu)]
  simpa using hu

theorem runInstr_nothing_inside (i : Instr) {s : State} (hd : s.during = During.none) (hr : s.replaced = []) :
    Answers (fun t => t.during = During.none ∧ t.replaced = []) (runInstr i s) := by
  intro t ht
  obtain ⟨u, he, rfl⟩ := runInstr_next ht
  obtain ⟨-, -, -, -, -, -, -, hur⟩ := exec_keepsPins i s u he
  exact ⟨exec_during_none i hd u he, hur.trans hr⟩

/-- The step of a CPU about to execute is the instruction fetched, with nothing left to apply at its end. -/
theorem step_of_fetchInstr {s : State} {i : Instr} (h : s.aboutToExecute) (hf : fetchInstr s = .ok i) :
    step s = runInstr i s := by
  obtain ⟨hs, hd, hr, hc⟩ := h
  have hact : act s = runInstr i s := by simp [act, hc, instructionStep, hf]
  rw [step_alone s hs hd hr, hact]
  cases hrun : runInstr i s with
  | next t =>
    obtain ⟨htd, htr⟩ := runInstr_nothing_inside i hd hr t hrun
    exact congrArg Host.Outcome.next (settle_none _ s t hd htd htr)
  | fault r => rfl
  | refused r => rfl

/-- Settles O46: the decoder's answer is the instruction fetched, and the step runs it (`step_of_fetchInstr`). -/
theorem stepRunsDecodedInstruction : Obligations.StepRunsDecodedInstruction := by
  unfold Obligations.StepRunsDecodedInstruction
  intro s i rest hs hdec _
  rw [step_of_fetchInstr hs (fetchInstr_of_decode hdec)]
  exact ⟨fun t he => by simp [runInstr, he], fun r he => by simp [runInstr, he]⟩

end Sys2Proof.Machine
end

section
/-! SUPPORT. PHP and PLP: the image of the flags loads back as the same flags (10_state.md R35, R36), and a byte pushed
to RAM is the byte pulled next (20_memory.md R65). -/

namespace Sys2Proof.Machine

open Sys2Proof.Stmt

theorem flagsOf_image (p : Flags) (b : Bool) : flagsOf (p.image b) = p := by
  have all : ∀ n v d i z c b : Bool, flagsOf (Flags.image ⟨n, v, d, i, z, c⟩ b) = ⟨n, v, d, i, z, c⟩ := by
    decide
  exact all p.n p.v p.d p.i p.z p.c b

/-- The model's image of the flags is the statements' (R35). -/
theorem image_eq_pByte (p : Flags) (b : Bool) : p.image b = pByte p b := by
  have bit (c : Bool) (k : Nat) : c.toNat * k = if c then k else 0 := by cases c <;> simp
  simp only [Flags.image, pByte, ← bit]
  simp

/-- The model's stack address is the statements' (R22). -/
theorem stackAddr_eq_page1 (sp : Byte) : stackAddr sp = page1 sp := by
  apply BitVec.eq_of_toNat_eq
  have := sp.isLt
  rw [stackAddr_toNat, page1, BitVec.toNat_ofNat, Nat.mod_eq_of_lt (by omega)]

theorem stackRam_one {s : State} (h : StackRam 1 s) : s.replaced = [] ∧ s.kind (stackAddr s.sp) = .ram := by
  obtain ⟨hr, ram⟩ := h
  have top := ram 0 Nat.one_pos
  rw [← stackAddr_eq_page1] at top
  exact ⟨hr, by simpa using top⟩

/-- A byte pushed to RAM in one step is the byte the next step pulls. -/
theorem pulled_finish_push8 {s : State} (b : Boundary) (k : Slot) (v : Byte) (hr : s.replaced = [])
    (ram : s.kind (stackAddr s.sp) = .ram) : ((s.push8 v).finish b).pulled k 1 = v := by
  have top : ((s.push8 v).finish b).sp + BitVec.ofNat 8 1 = s.sp := by simp
  rw [State.pulled, top, State.memRead_ram _ _ _ (by simpa using ram) (by simpa using hr), State.finish_byteAt,
    State.push8_byteAt]
  simp [ram]

/-- Settles O25: PLP pulls the image PHP pushed (`pulled_finish_push8`), and the image loads back (`flagsOf_image`). -/
theorem phpThenPlpRestoresFlags : Obligations.PhpThenPlpRestoresFlags := by
  unfold Obligations.PhpThenPlpRestoresFlags
  refine ⟨fun s t hstack h => ?_, fun p b => ⟨flagsOf_image p b, image_eq_pByte p b⟩⟩
  obtain ⟨hr, ram⟩ := stackRam_one hstack
  cases h
  refine ⟨_, rfl, ?_, by simp, by simp, by simp, by simp⟩
  exact (congrArg flagsOf (pulled_finish_push8 .ordinary .pull1 (s.p.image true) hr ram)).trans (flagsOf_image s.p true)

end Sys2Proof.Machine
end

section
/-! SUPPORT. Which registers and flags each instruction can change (10_state.md R20 to R34, R115). -/

namespace Sys2Proof.Machine

/-- The registers and flags that an instruction writes; N and Z are written together. -/
structure Writes where
  a : Bool
  x : Bool
  y : Bool
  sp : Bool
  i : Bool
  d : Bool
  v : Bool
  c : Bool
  nz : Bool

/-- What an instruction of a mnemonic and a mode writes. -/
def writesOf (m : Mnemonic) (mode : Mode) : Writes where
  a := decide (m ∈ [Mnemonic.lda, .pla, .txa, .tya, .adc, .sbc, .and, .ora, .eor] ∨ mode = .accum)
  x := decide (m ∈ [Mnemonic.ldx, .tax, .tsx, .inx, .dex])
  y := decide (m ∈ [Mnemonic.ldy, .tay, .iny, .dey])
  sp := decide (m ∈ [Mnemonic.txs, .pha, .php, .pla, .plp, .jsr, .rts, .brk, .rti])
  i := decide (m ∈ [Mnemonic.cli, .sei, .plp, .rti, .brk])
  d := decide (m ∈ [Mnemonic.cld, .sed, .plp, .rti])
  v := decide (m ∈ [Mnemonic.clv, .plp, .rti, .adc, .sbc, .bit])
  c := decide (m ∈ [Mnemonic.clc, .sec, .plp, .rti, .adc, .sbc, .cmp, .cpx, .cpy, .asl, .lsr, .rol, .ror])
  nz := decide (m ∈
    [Mnemonic.lda, .ldx, .ldy, .tax, .tay, .txa, .tya, .tsx, .pla, .plp, .rti, .adc, .sbc, .and, .ora, .eor, .inc, .dec,
     .inx, .iny, .dex, .dey, .asl, .lsr, .rol, .ror, .cmp, .cpx, .cpy, .bit])

@[simp] theorem Flags.setNZ_v (p : Flags) (r : Byte) : (p.setNZ r).v = p.v := rfl
@[simp] theorem Flags.setNZ_d (p : Flags) (r : Byte) : (p.setNZ r).d = p.d := rfl
@[simp] theorem Flags.setNZ_i (p : Flags) (r : Byte) : (p.setNZ r).i = p.i := rfl
@[simp] theorem Flags.setNZ_c (p : Flags) (r : Byte) : (p.setNZ r).c = p.c := rfl
@[simp] theorem Flags.setNZC_v (p : Flags) (r : Byte) (c : Bool) : (p.setNZC r c).v = p.v := rfl
@[simp] theorem Flags.setNZC_d (p : Flags) (r : Byte) (c : Bool) : (p.setNZC r c).d = p.d := rfl
@[simp] theorem Flags.setNZC_i (p : Flags) (r : Byte) (c : Bool) : (p.setNZC r c).i = p.i := rfl

/-- From `s` to `t` only what is written changes. A field that is left out of a proof stands for a register or flag that
is as it was. -/
structure ChangesOnly (w : Writes) (s t : State) : Prop where
  a : t.a = s.a ∨ w.a = true := by simp
  x : t.x = s.x ∨ w.x = true := by simp
  y : t.y = s.y ∨ w.y = true := by simp
  sp : t.sp = s.sp ∨ w.sp = true := by simp
  i : t.p.i = s.p.i ∨ w.i = true := by simp
  d : t.p.d = s.p.d ∨ w.d = true := by simp
  v : t.p.v = s.p.v ∨ w.v = true := by simp
  c : t.p.c = s.p.c ∨ w.c = true := by simp
  nz : (t.p.n = s.p.n ∧ t.p.z = s.p.z) ∨ w.nz = true := by simp

section

variable {w : Writes} {s u : State}

theorem done_changesOnly (h : ChangesOnly w s u) : Answers (ChangesOnly w s) (done u) :=
  next_answers ⟨h.a, h.x, h.y, h.sp, h.i, h.d, h.v, h.c, h.nz⟩

/-! What each shared meaning changes -/

theorem decimalResult_changesOnly (n : Nat) (valid : Bool) (r : Byte × Bool) (a : w.a = true) (v : w.v = true)
    (c : w.c = true) (nz : w.nz = true) : ChangesOnly w s ((decimalResult valid r s).advance n) := by
  unfold decimalResult
  exact { a := .inr a, v := .inr v, c := .inr c, nz := .inr nz }

theorem binaryResult_changesOnly (n : Nat) (q : Sum) (a : w.a = true) (v : w.v = true) (c : w.c = true)
    (nz : w.nz = true) : ChangesOnly w s ((binaryResult q s).advance n) := by
  unfold binaryResult
  exact { a := .inr a, v := .inr v, c := .inr c, nz := .inr nz }

theorem addWithCarry_changesOnly (n : Nat) (m : Byte) (a : w.a = true) (v : w.v = true) (c : w.c = true)
    (nz : w.nz = true) : Answers (ChangesOnly w s) (addWithCarry n m s) := by
  unfold addWithCarry
  split
  · exact done_changesOnly (decimalResult_changesOnly n _ _ a v c nz)
  · exact done_changesOnly (binaryResult_changesOnly n _ a v c nz)

theorem subWithBorrow_changesOnly (n : Nat) (m : Byte) (a : w.a = true) (v : w.v = true) (c : w.c = true)
    (nz : w.nz = true) : Answers (ChangesOnly w s) (subWithBorrow n m s) := by
  unfold subWithBorrow
  split
  · exact done_changesOnly (decimalResult_changesOnly n _ _ a v c nz)
  · exact done_changesOnly (binaryResult_changesOnly n _ a v c nz)

/-- A load of `A`, from the state `s` or, by PLA, from one whose `S` has moved. -/
theorem loadA_changesOnly (n : Nat) (m : Byte) (h : ChangesOnly w s u) (a : w.a = true) (nz : w.nz = true) :
    Answers (ChangesOnly w s) (loadA n m u) :=
  done_changesOnly { h with a := .inr a, nz := .inr nz }

theorem loadX_changesOnly (n : Nat) (m : Byte) (x : w.x = true) (nz : w.nz = true) :
    Answers (ChangesOnly w s) (loadX n m s) :=
  done_changesOnly { x := .inr x, nz := .inr nz }

theorem loadY_changesOnly (n : Nat) (m : Byte) (y : w.y = true) (nz : w.nz = true) :
    Answers (ChangesOnly w s) (loadY n m s) :=
  done_changesOnly { y := .inr y, nz := .inr nz }

theorem store_changesOnly (n : Nat) (ea : Addr) (b : Byte) : Answers (ChangesOnly w s) (store n ea b s) :=
  done_changesOnly {}

theorem logicA_changesOnly (n : Nat) (r : Byte) (a : w.a = true) (nz : w.nz = true) :
    Answers (ChangesOnly w s) (logicA n r s) :=
  done_changesOnly { a := .inr a, nz := .inr nz }

theorem bitTest_changesOnly (n : Nat) (m : Byte) (v : w.v = true) (nz : w.nz = true) :
    Answers (ChangesOnly w s) (bitTest n m s) :=
  done_changesOnly { v := .inr v, nz := .inr nz }

theorem compare_changesOnly (reg : Byte) (n : Nat) (m : Byte) (c : w.c = true) (nz : w.nz = true) :
    Answers (ChangesOnly w s) (compare reg n m s) :=
  done_changesOnly { c := .inr c, nz := .inr nz }

theorem shiftA_changesOnly (f : Byte → Byte × Bool) (a : w.a = true) (c : w.c = true) (nz : w.nz = true) :
    Answers (ChangesOnly w s) (shiftA f s) :=
  done_changesOnly { a := .inr a, c := .inr c, nz := .inr nz }

theorem shiftMem_changesOnly (n : Nat) (ea : Addr) (f : Byte → Byte × Bool) (c : w.c = true) (nz : w.nz = true) :
    Answers (ChangesOnly w s) (shiftMem n ea f s) :=
  done_changesOnly { c := .inr c, nz := .inr nz }

theorem stepMem_changesOnly (n : Nat) (ea : Addr) (delta : Byte) (nz : w.nz = true) :
    Answers (ChangesOnly w s) (stepMem n ea delta s) :=
  done_changesOnly { nz := .inr nz }

theorem indexX_changesOnly (r : Byte) (x : w.x = true) (nz : w.nz = true) :
    Answers (ChangesOnly w s) (indexX r s) :=
  done_changesOnly { x := .inr x, nz := .inr nz }

theorem indexY_changesOnly (r : Byte) (y : w.y = true) (nz : w.nz = true) :
    Answers (ChangesOnly w s) (indexY r s) :=
  done_changesOnly { y := .inr y, nz := .inr nz }

theorem branch_changesOnly (cond : Bool) (r : Byte) : Answers (ChangesOnly w s) (branch cond r s) := by
  rw [branch_next]
  exact next_answers {}

theorem execJsr_changesOnly (address : Addr) (sp : w.sp = true) : Answers (ChangesOnly w s) (execJsr address s) := by
  unfold execJsr
  split
  · exact refused_answers _
  · exact done_changesOnly { sp := .inr sp }

/-- Taking an interrupt, redirected or not, changes `S` and `I` (60_exceptions.md R230, R239). -/
theorem interruptEntry_changesOnly (vector : Addr) (b : Bool) (sp : w.sp = true) (i : w.i = true) :
    ChangesOnly w s (interruptEntry vector b s) := by
  cases h : s.nmiRedirects vector
  · rw [interruptEntry_eq vector b s h]
    exact { sp := .inr sp, i := .inr i }
  · rw [interruptEntry_redirected vector b s h]
    exact { sp := .inr sp, i := .inr i }

end

/-- Every instruction changes only what its mnemonic and mode write. -/
theorem exec_changesOnly (i : Instr) (s : State) : Answers (ChangesOnly (writesOf i.mnemonic i.mode) s) (exec i s) := by
  cases i with
  | adcIndX | adcZp | adcImm | adcAbs | adcIndY | adcZpX | adcAbsY | adcAbsX =>
    exact addWithCarry_changesOnly _ _ rfl rfl rfl rfl
  | sbcIndX | sbcZp | sbcImm | sbcAbs | sbcIndY | sbcZpX | sbcAbsY | sbcAbsX =>
    exact subWithBorrow_changesOnly _ _ rfl rfl rfl rfl
  | andIndX | andZp | andImm | andAbs | andIndY | andZpX | andAbsY | andAbsX
  | oraIndX | oraZp | oraImm | oraAbs | oraIndY | oraZpX | oraAbsY | oraAbsX
  | eorIndX | eorZp | eorImm | eorAbs | eorIndY | eorZpX | eorAbsY | eorAbsX => exact logicA_changesOnly _ _ rfl rfl
  | bitZp | bitAbs => exact bitTest_changesOnly _ _ rfl rfl
  | cmpIndX | cmpZp | cmpImm | cmpAbs | cmpIndY | cmpZpX | cmpAbsY | cmpAbsX
  | cpxImm | cpxZp | cpxAbs | cpyImm | cpyZp | cpyAbs => exact compare_changesOnly _ _ _ rfl rfl
  | aslAcc | lsrAcc | rolAcc | rorAcc => exact shiftA_changesOnly _ rfl rfl rfl
  | aslZp | aslAbs | aslZpX | aslAbsX | lsrZp | lsrAbs | lsrZpX | lsrAbsX
  | rolZp | rolAbs | rolZpX | rolAbsX | rorZp | rorAbs | rorZpX | rorAbsX => exact shiftMem_changesOnly _ _ _ rfl rfl
  | incZp | incAbs | incZpX | incAbsX | decZp | decAbs | decZpX | decAbsX => exact stepMem_changesOnly _ _ _ rfl
  | inx | dex => exact indexX_changesOnly _ rfl rfl
  | iny | dey => exact indexY_changesOnly _ rfl rfl
  | bcc | bcs | beq | bmi | bne | bpl | bvc | bvs => exact branch_changesOnly _ _
  | ldaIndX | ldaZp | ldaImm | ldaAbs | ldaIndY | ldaZpX | ldaAbsY | ldaAbsX | txa | tya =>
    exact loadA_changesOnly _ _ {} rfl rfl
  | pla => exact loadA_changesOnly _ _ { sp := .inr rfl } rfl rfl
  | ldxImm | ldxZp | ldxAbs | ldxZpY | ldxAbsY | tax | tsx => exact loadX_changesOnly _ _ rfl rfl
  | ldyImm | ldyZp | ldyAbs | ldyZpX | ldyAbsX | tay => exact loadY_changesOnly _ _ rfl rfl
  | staIndX | staZp | staAbs | staIndY | staZpX | staAbsY | staAbsX
  | stxZp | stxAbs | stxZpY | styZp | styAbs | styZpX => exact store_changesOnly _ _ _
  | pha | php | txs | rts => exact done_changesOnly { sp := .inr rfl }
  | clc | sec => exact done_changesOnly { c := .inr rfl }
  | cld | sed => exact done_changesOnly { d := .inr rfl }
  | clv => exact done_changesOnly { v := .inr rfl }
  | nop | jmpAbs | jmpInd => exact done_changesOnly {}
  | cli | sei => exact next_answers { i := .inr rfl }
  | plp =>
    exact next_answers { sp := .inr rfl, i := .inr rfl, d := .inr rfl, v := .inr rfl, c := .inr rfl, nz := .inr rfl }
  | jsr => exact execJsr_changesOnly _ rfl
  | brk =>
    have entered : ChangesOnly (writesOf .brk .implied) (s.advance 2) (interruptEntry irqVector true (s.advance 2)) :=
      interruptEntry_changesOnly irqVector true rfl rfl
    exact next_answers { entered with }
  | rti =>
    have returned : ChangesOnly (writesOf .rti .implied) s (returnFromInterrupt s) := by
      rw [returnFromInterrupt_eq]
      exact { sp := .inr rfl, i := .inr rfl, d := .inr rfl, v := .inr rfl, c := .inr rfl, nz := .inr rfl }
    exact done_changesOnly returned

/-- Settles O53: the lists of the statement are the fields of `writesOf`, and nothing else changes
(`exec_changesOnly`). -/
theorem registersHaveTheirWriters : Obligations.RegistersHaveTheirWriters := by
  unfold Obligations.RegistersHaveTheirWriters
  intro i s t h
  have only : ChangesOnly (writesOf i.mnemonic i.mode) s t := exec_changesOnly i s t h
  have written {P : Prop} [Decidable P] {kept : Prop} (k : kept ∨ decide P = true) (changed : ¬ kept) : P :=
    of_decide_eq_true (k.resolve_left changed)
  refine ⟨written only.a, written only.x, written only.y, written only.sp, written only.i, written only.d,
    written only.v, written only.c, fun changed => written only.nz fun ⟨n, z⟩ => ?_⟩
  exact changed.elim (absurd n) (absurd z)

end Sys2Proof.Machine
end

section
/-! SUPPORT. The NMI latch (10_state.md R39; 60_exceptions.md R222, R228, R239): what a level does between CPU steps,
and what becomes of an edge that falls inside one. -/

namespace Sys2Proof.Machine

/-! The level of the pin -/

/-- A level that stays low latches nothing new. -/
theorem setNmi_stays_low {s : State} (low : s.nmiLine = false) : setNmi false s = s := by
  cases s
  simp_all [setNmi]

/-- Falling again after any level, the pin adds one request where it had risen, merged with what was pending. -/
theorem setNmi_fall_again (high : Bool) {s : State} (present : hasNmi s.platform.dev = true) :
    setNmi false (setNmi high (setNmi false s)) =
      { s with nmiLine := false, nmiPending := (s.nmiPending || s.nmiLine) || high } := by
  simp [setNmi_present, present]

/-! Vectors lie outside page one -/

/-- An address whose location is outside page one is read after a push as before it. -/
theorem State.push8_memRead (s : State) (v : Byte) (k : Slot) (a : Addr) (outside : 512 ≤ s.loc a) :
    (s.push8 v).memRead k a = s.memRead k a := by
  have := s.sp.isLt
  have byte : (s.push8 v).byteAt a = s.byteAt a := by
    rw [State.push8_byteAt, if_neg (by omega)]
  simp [State.memRead, State.seenAt, byte]

theorem State.pushFrame_memRead (s : State) (b : Bool) (k : Slot) (a : Addr) (outside : 512 ≤ s.loc a) :
    (s.pushFrame b).memRead k a = s.memRead k a := by
  rw [State.pushFrame, State.push8_memRead, State.push8_memRead, State.push8_memRead] <;> simpa using outside

/-- Every device brings out enough address lines to keep the vectors out of page one (20_memory.md R51, R54). -/
theorem State.loc_vector_outside (s : State) {a : Addr} (high : 0xFFFA ≤ a.toNat) : 512 ≤ s.loc a := by
  have := a.isLt
  unfold State.loc
  cases s.platform.dev <;> simp only [addrBits] <;> omega

theorem State.pushFrame_vectorAt_nmi (s : State) (b : Bool) (p : Flags) :
    ((s.pushFrame b).withP p).vectorAt nmiVector = s.vectorAt nmiVector := by
  unfold State.vectorAt
  rw [State.withP_memRead, State.withP_memRead, State.pushFrame_memRead, State.pushFrame_memRead] <;>
    exact s.loc_vector_outside (by decide)

/-! What an act of the CPU leaves of an edge inside it -/

/-- The NMI pin and the edges inside the step are as they were. -/
def NmiUntouched (s t : State) : Prop := t.nmiLine = s.nmiLine ∧ t.during = s.during

/-- A sequence redirected to the NMI vector has served the edge (R239, log 13). -/
structure NmiEdgeServed (s t : State) : Prop where
  line : t.nmiLine = false
  pending : t.nmiPending = false
  edge : t.during.nmiFalls = false
  pc : t.pc = s.vectorAt nmiVector

section

variable {s t u : State}

theorem nmiUntouched_keptByUpdates : KeptByUpdates (NmiUntouched s) where
  withA _ h := h
  withX _ h := h
  withY _ h := h
  withSp _ h := h
  withPc _ h := h
  withP _ h := h
  memWrite a v h := by simpa [NmiUntouched] using h
  finish _ h := h

/-- Taking an interrupt serves the edge or leaves it. -/
theorem interruptEntry_untouched_or_served (vector : Addr) (b : Bool) (s : State) :
    NmiUntouched s (interruptEntry vector b s) ∨ NmiEdgeServed s (interruptEntry vector b s) := by
  cases h : s.nmiRedirects vector
  · left
    rw [interruptEntry_eq vector b s h]
    simp [NmiUntouched]
  · right
    rw [interruptEntry_redirected vector b s h]
    exact ⟨rfl, rfl, rfl, s.pushFrame_vectorAt_nmi b _⟩

/-- The NMI sequence is not redirected: its vector is NMI's already. -/
theorem nmiRedirects_nmiVector (s : State) : s.nmiRedirects nmiVector = false := by simp [State.nmiRedirects]

theorem nmiSequence_serves_request (s : State) :
    (nmiSequence s).nmiPending = false ∧ NmiUntouched s (nmiSequence s) := by
  unfold nmiSequence
  rw [interruptEntry_eq nmiVector false _ (nmiRedirects_nmiVector _)]
  simp [NmiUntouched]

theorem exec_untouched_or_served {i : Instr} (h : exec i s = .next t) :
    NmiUntouched s t ∨ (i = .brk ∧ NmiEdgeServed s t) := by
  by_cases hi : i = .brk
  · subst hi
    cases h
    have taken := interruptEntry_untouched_or_served irqVector true (s.advance 2)
    exact taken.imp id fun served => ⟨rfl, { served with }⟩
  · exact .inl (exec_keeps nmiUntouched_keptByUpdates i (fun brk => absurd brk hi) ⟨rfl, rfl⟩ t h)

/-- Outside the reset sequence an act leaves the edge to be latched, but an IRQ sequence or a BRK may have served it. -/
theorem act_untouched_or_served (h : act s = .next t) (notReset : chooseAct s ≠ .resetSequence) :
    NmiUntouched s t ∨ (NmiEdgeServed s t ∧
      (chooseAct s = .irqSequence ∨ (chooseAct s = .instruction ∧ fetchInstr s = .ok .brk))) := by
  unfold act at h
  cases hc : chooseAct s <;> rw [hc] at h
  case idle => cases h; exact .inl ⟨rfl, rfl⟩
  case resetSequence => exact absurd hc notReset
  case nmiSequence => cases h; exact .inl (nmiSequence_serves_request s).2
  case irqSequence =>
    cases h
    exact (interruptEntry_untouched_or_served irqVector false s).imp id fun served => ⟨{ served with }, .inl rfl⟩
  case instruction =>
    obtain ⟨i, u, hf, he, rfl⟩ := instructionStep_next h
    exact (exec_untouched_or_served he).imp id fun ⟨hi, served⟩ => ⟨{ served with }, .inr ⟨rfl, hi ▸ hf⟩⟩

/-! The end of the step -/

theorem nmiInside_served (before : State) (h : s.during.nmiFalls = false) : nmiInside before s = s := by
  simp [nmiInside, h]

/-- What becomes of an NMI edge inside a CPU step without DMA writes. -/
theorem cpuStep_nmi_edge {q : State} (hq : q = beginStep ⟨true, false, false⟩ [] s)
    (h : cpuStep ⟨true, false, false⟩ [] s = .next t) (present : hasNmi s.platform.dev = true)
    (line : s.nmiLine = true) :
    t.nmiLine = false ∧
    (chooseAct q = .resetSequence → t.nmiPending = false) ∧
    (chooseAct q ≠ .resetSequence → t.nmiPending = true ∨
      (t.nmiPending = false ∧
        (chooseAct q = .irqSequence ∨ (chooseAct q = .instruction ∧ fetchInstr q = .ok .brk)) ∧
        t.pc = q.vectorAt nmiVector)) := by
  obtain ⟨after, ha, rfl⟩ := cpuStep_next _ _ h
  rw [← hq] at ha ⊢
  have hqPlatform : q.platform = s.platform := by rw [hq, beginStep_eq]
  have hqLine : q.nmiLine = true := by rw [hq, beginStep_eq]; exact line
  have hqEdge : q.during.nmiFalls = true := by rw [hq, beginStep_eq]
  have hn : hasNmi after.platform.dev = true := by rwa [(act_sameLevels ha).platform, hqPlatform]
  rw [dmaAfterWrites_nil, settle_nmiLine, settle_nmiPending, settle_pc]
  by_cases hc : chooseAct q = .resetSequence
  · have hafter : after = resetSequence q := by simpa [act, hc, eq_comm] using ha
    subst hafter
    exact ⟨nmiInside_line q _ hn (.inl hqEdge), fun _ => nmiInside_reset q _ hc, fun other => absurd hc other⟩
  · have notReset {P : Prop} (reset : chooseAct q = .resetSequence) : P := absurd reset hc
    obtain ⟨hline, hduring⟩ | ⟨served, who⟩ := act_untouched_or_served ha hc
    · obtain ⟨pending, low⟩ := nmiInside_latches q after hc hn (by rwa [hduring]) (by rwa [hline])
      exact ⟨low, notReset, fun _ => .inl pending⟩
    · rw [nmiInside_served q served.edge]
      exact ⟨served.line, notReset, fun _ => .inr ⟨served.pending, who, served.pc⟩⟩

end

/-- Settles O38: the level latches its falling edges only (`setNmi_present`, `setNmi_stays_low`), the NMI sequence
serves the request, and an edge inside a step is latched but for the two cases of `cpuStep_nmi_edge`. -/
theorem nmiEdgesAreMerged : Obligations.NmiEdgesAreMerged := by
  unfold Obligations.NmiEdgesAreMerged
  intro s
  refine ⟨fun present => ⟨?_, ?_, setNmi_stays_low, fun high => setNmi_fall_again high present⟩,
    fun absent high => setNmi_absent high absent, (nmiSequence_serves_request s).1,
    fun q t hq h present line => cpuStep_nmi_edge hq h present line⟩
  · simp [envStep, setNmi_present false present]
  · simp [envStep, setNmi_present true present]

end Sys2Proof.Machine
end

section
/-! SUPPORT. What a write leaves in memory, and which addresses reach one location (20_memory.md R51, R52, R60). -/

namespace Sys2Proof.Machine

open Sys2Proof.Stmt

section

variable {s : State} {a b : Addr}

/-! Addresses that reach one location -/

theorem State.byteAt_eq_of_loc_eq (h : s.loc a = s.loc b) : s.byteAt a = s.byteAt b := by rw [byteAt, byteAt, h]

theorem State.kind_eq_of_loc_eq (h : s.loc a = s.loc b) : s.kind a = s.kind b := by rw [kind, kind, h]

/-- What is written to RAM is read at every address that reaches its location, by whatever read. -/
theorem State.memRead_memWrite (k : Slot) (v : Byte) (ram : s.kind a = .ram) (hr : s.replaced = [])
    (h : s.loc a = s.loc b) : (s.memWrite a v).memRead k b = v := by
  have ram' : (s.memWrite a v).kind b = .ram := by rw [memWrite_kind, ← kind_eq_of_loc_eq h, ram]
  have hr' : (s.memWrite a v).replaced = [] := by rw [memWrite_replaced, hr]
  rw [memRead_ram _ k b ram' hr', memWrite_byteAt, if_pos ⟨ram, h.symm⟩]

/-! One write -/

theorem State.memWrite_of_not_ram (v : Byte) (h : s.kind a ≠ .ram) : s.memWrite a v = s := by
  unfold memWrite
  split
  next ram => exact absurd ram h
  all_goals rfl

theorem memWrite_storesOnly (s : State) (a : Addr) (v : Byte) : StoresOnly s (s.memWrite a v) [(a, v)] := by
  simp only [StoresOnly, List.forall_mem_singleton]
  refine ⟨fun b other => ?_, fun ram => ?_, fun notRam => ?_⟩
  · rw [s.memWrite_byteAt, if_neg fun ⟨_, same⟩ => other same]
  · rw [s.memWrite_byteAt, if_pos ⟨ram, rfl⟩]
  · rw [State.memWrite_of_not_ram v notRam]

end

/-- Settles O43: equal modulo `2^ADDR_BITS` is one location, and byte, kind and a write go by the location
(`State.memRead_memWrite`). -/
theorem absentAddressLinesAlias : Obligations.AbsentAddressLinesAlias := by
  unfold Obligations.AbsentAddressLinesAlias
  intro s a b h
  have same : s.loc a = s.loc b := h
  exact ⟨State.byteAt_eq_of_loc_eq same, State.kind_eq_of_loc_eq same,
    fun k v ram hr => State.memRead_memWrite k v ram hr same⟩

/-- Settles O44: a write is its location's alone (`memWrite_storesOnly`), and outside RAM it is nothing
(`State.memWrite_of_not_ram`). -/
theorem writesReachRamOnly : Obligations.WritesReachRamOnly := by
  unfold Obligations.WritesReachRamOnly
  intro s a v
  refine ⟨memWrite_storesOnly s a v, s.memWrite_eq a v, State.memWrite_of_not_ram v, ?_⟩
  rintro k (⟨ram, hr⟩ | rom)
  · exact s.memRead_ram k a ram hr
  · exact s.memRead_rom k a rom

/-! A store and the fetch after it -/

/-- The first byte of a fetch is the op code's, whatever it is (10_state.md R26). -/
theorem fetchBytes_head (s : State) : ∃ rest, fetchBytes s = s.memRead .opcode s.pc :: rest := by
  unfold fetchBytes
  dsimp only
  split <;> exact ⟨_, rfl⟩

/-- Settles O45: STA leaves `PC` at the address stored to, RAM answers the fetch there, and the byte is the one
stored. -/
theorem storeSeenByNextFetch : Obligations.StoreSeenByNextFetch := by
  unfold Obligations.StoreSeenByNextFetch
  intro s t ram hr h
  cases h
  have pc : (((s.memWrite (s.pc + 3) s.a).advance 3).finish .ordinary).pc = s.pc + 3 := by simp
  obtain ⟨rest, fetched⟩ := fetchBytes_head (((s.memWrite (s.pc + 3) s.a).advance 3).finish .ordinary)
  refine ⟨pc, rest, fetched.trans (congrArg (· :: rest) ?_)⟩
  rw [pc, State.memRead_ram _ _ _ (by simpa using ram) (by simpa using hr), State.finish_byteAt, State.advance_byteAt,
    State.memWrite_byteAt, if_pos ⟨ram, rfl⟩]

end Sys2Proof.Machine
end

section
/-! SUPPORT. Writes by another bus master, between CPU steps and inside one (20_memory.md R62, R261), and a CPU that
is held meanwhile. -/

namespace Sys2Proof.Machine

open Sys2Proof.Stmt

/-! Between CPU steps -/

/-- Settles O40: with both pins high the bus is the CPU's; otherwise the write is an ordinary one
(`memWrite_storesOnly`). -/
theorem dmaOnlyWhileBusIsFree : Obligations.DmaOnlyWhileBusIsFree := by
  unfold Obligations.DmaOnlyWhileBusIsFree
  intro s a v
  refine ⟨fun busy => if_pos busy, fun free => ?_⟩
  have written : envStep (.dma a v) s = s.memWrite a v := if_neg (by simp [free])
  rw [written]
  exact ⟨s.memWrite_eq a v, memWrite_storesOnly s a v⟩

/-! Inside a CPU step -/

theorem dmaInOrder_singleton {dev : Device} (present : hasRdy dev = true) (e : DmaWrite) : dmaInOrder dev [e] = [e] := by
  obtain ⟨before, a, v⟩ := e
  rw [dmaInOrder, if_pos present]
  cases before <;> rfl

theorem dmaInOrder_absent {dev : Device} (absent : hasRdy dev = false) (dma : List DmaWrite) : dmaInOrder dev dma = [] :=
  if_neg (by simp [absent])

section

variable {s : State}

theorem dmaInside_ram {e : DmaWrite} (ram : s.kind e.a = .ram) :
    dmaInside s e =
      { s.memWrite e.a e.v with replaced := s.replaced ++ [⟨e.before, s.loc e.a, s.byteAt e.a⟩] } := by
  rw [dmaInside, ram]

/-- A step with one DMA write to RAM works in memory as the write leaves it, and notes what it replaced. -/
theorem beginStep_one_write (d : During) (j : Slot) (a : Addr) (v : Byte) (present : hasRdy s.platform.dev = true)
    (ram : s.kind a = .ram) :
    beginStep d [⟨j, a, v⟩] s =
      { s.memWrite a v with during := d, replaced := [⟨j, s.loc a, s.byteAt a⟩] } := by
  have ram' : State.kind { s with during := d, replaced := [] } a = .ram := ram
  rw [beginStep, dmaInOrder_singleton present, List.foldl_cons, List.foldl_nil, dmaInside_ram ram', State.memWrite_eq,
    State.memWrite_eq s, State.memWrite_mem, State.memWrite_mem s]
  rfl

theorem beginStep_absent (d : During) (dma : List DmaWrite) (absent : hasRdy s.platform.dev = false) :
    beginStep d dma s = { s with during := d, replaced := [] } := by
  rw [beginStep, dmaInOrder_absent absent, List.foldl_nil]

/-- Of RAM a read finds what the notes of DMA writes inside the step leave it to find (R62 d). -/
theorem State.memRead_ram_seenAt (k : Slot) {a : Addr} (ram : s.kind a = .ram) : s.memRead k a = s.seenAt k a := by
  rw [memRead, ram]

/-- With one DMA write noted, the reads of its location that come before it find what it replaced. -/
theorem State.seenAt_one_write {j : Slot} {a : Addr} {old : Byte} (hr : s.replaced = [⟨j, s.loc a, old⟩]) (k : Slot)
    {b : Addr} (same : s.loc b = s.loc a) :
    s.seenAt k b = if slotRank k < slotRank j then old else s.byteAt b := by
  by_cases before : slotRank k < slotRank j <;> simp [seenAt, hr, same, before]

theorem beginStep_one_write_memRead (d : During) (j : Slot) (a : Addr) (v : Byte)
    (present : hasRdy s.platform.dev = true) (ram : s.kind a = .ram) (k : Slot) {b : Addr} (same : s.loc b = s.loc a) :
    (beginStep d [⟨j, a, v⟩] s).memRead k b = if slotRank k < slotRank j then s.byteAt b else v := by
  have ram' : (beginStep d [⟨j, a, v⟩] s).kind b = .ram := by
    rw [beginStep_eq, ← ram, ← State.kind_eq_of_loc_eq same]
    rfl
  have byte : (beginStep d [⟨j, a, v⟩] s).byteAt b = v := by
    rw [beginStep_one_write d j a v present ram]
    exact (s.memWrite_byteAt a v b).trans (if_pos ⟨ram, same⟩)
  have noted : (beginStep d [⟨j, a, v⟩] s).replaced = [⟨j, (beginStep d [⟨j, a, v⟩] s).loc a, s.byteAt a⟩] := by
    rw [beginStep_one_write d j a v present ram, ← s.memWrite_loc a v a]
    rfl
  have same' : (beginStep d [⟨j, a, v⟩] s).loc b = (beginStep d [⟨j, a, v⟩] s).loc a := by
    rw [beginStep_eq]
    exact same
  rw [State.memRead_ram_seenAt k ram', State.seenAt_one_write noted k same', byte, State.byteAt_eq_of_loc_eq same]

end

/-- Settles O41: with RDY the step works in memory as the write leaves it, each read by its place in the step
(`beginStep_one_write_memRead`); without RDY there is no write inside it (`beginStep_absent`). -/
theorem dmaInsideStepOrdersReads : Obligations.DmaInsideStepOrdersReads := by
  unfold Obligations.DmaInsideStepOrdersReads
  intro s d j a v
  refine ⟨fun present ram => ⟨fun k b same => beginStep_one_write_memRead d j a v present ram k same, ?_⟩,
    beginStep_absent d _⟩
  rw [beginStep_one_write d j a v present ram]
  exact memWrite_storesOnly s a v

/-! A CPU that is held -/

/-- RES low holds the CPU over everything, RDY low over everything but a due reset (60_exceptions.md R225, R244). -/
theorem chooseAct_held {s : State} (held : s.res = false ∨ (s.rdy = false ∧ s.resetDue = false)) :
    chooseAct s = .idle := by
  rw [chooseAct_eq]
  rcases held with res | ⟨rdy, notDue⟩
  · simp [res]
  · simp [rdy, notDue]

/-- Settles O36: a held CPU idles (`chooseAct_held`), and with no edge inside the step its end changes nothing
(`settle_none`). -/
theorem heldCpuChangesNothing : Obligations.HeldCpuChangesNothing := by
  unfold Obligations.HeldCpuChangesNothing
  rintro s ⟨hs, hd, hr⟩ held
  have idle : act s = .next s := by rw [act, chooseAct_held held]
  rw [step_alone s hs hd hr, idle]
  exact congrArg Host.Outcome.next (settle_none _ s s hd hd hr)

end Sys2Proof.Machine
end

section
/-! SUPPORT. Which instructions can change memory, and what none changes (41_load_store_transfer.md R100,
43_shift_incdec.md R170, 60_exceptions.md R239). -/

namespace Sys2Proof.Machine

/-- An instruction of a mnemonic and a mode writes memory. -/
def writesMemory (m : Mnemonic) (mode : Mode) : Bool :=
  decide (m ∈ [Mnemonic.sta, .stx, .sty, .asl, .lsr, .rol, .ror, .inc, .dec, .pha, .php, .jsr, .brk] ∧ mode ≠ .accum)

/-- From `s` to `t` an instruction completed: memory is as it was unless the instruction writes it, its cycles are not
counted yet, and the next step draws new free values. -/
structure Completes (writer : Bool) (s t : State) : Prop where
  mem : t.mem = s.mem ∨ writer = true
  cycles : t.cycles = s.cycles
  draws : t.draws = s.draws + 1

section

variable {w : Bool} {s u : State}

/-- The end of an instruction that has left memory alone or writes it. -/
theorem finish_completes {b : Boundary} (mem : u.mem = s.mem ∨ w = true) (cycles : u.cycles = s.cycles)
    (draws : u.draws = s.draws) : Answers (Completes w s) (.next (u.finish b)) :=
  next_answers ⟨mem, cycles, congrArg (· + 1) draws⟩

/-- The end of an instruction that has changed no more than registers and flags. -/
theorem finish_completes_kept {b : Boundary} (mem : u.mem = s.mem) (cycles : u.cycles = s.cycles)
    (draws : u.draws = s.draws) : Answers (Completes w s) (.next (u.finish b)) :=
  finish_completes (.inl mem) cycles draws

theorem addWithCarry_completes (n : Nat) (m : Byte) : Answers (Completes w s) (addWithCarry n m s) := by
  unfold addWithCarry
  split
  · exact finish_completes_kept rfl rfl rfl
  · exact finish_completes_kept rfl rfl rfl

theorem subWithBorrow_completes (n : Nat) (m : Byte) : Answers (Completes w s) (subWithBorrow n m s) := by
  unfold subWithBorrow
  split
  · exact finish_completes_kept rfl rfl rfl
  · exact finish_completes_kept rfl rfl rfl

theorem branch_completes (cond : Bool) (r : Byte) : Answers (Completes w s) (branch cond r s) := by
  unfold branch
  split
  · exact finish_completes_kept rfl rfl rfl
  · exact finish_completes_kept rfl rfl rfl

theorem store_completes (n : Nat) (ea : Addr) (v : Byte) (writer : w = true) :
    Answers (Completes w s) (store n ea v s) :=
  finish_completes (.inr writer) (by simp) (by simp)

theorem shiftMem_completes (n : Nat) (ea : Addr) (f : Byte → Byte × Bool) (writer : w = true) :
    Answers (Completes w s) (shiftMem n ea f s) :=
  finish_completes (.inr writer) (by simp) (by simp)

theorem stepMem_completes (n : Nat) (ea : Addr) (delta : Byte) (writer : w = true) :
    Answers (Completes w s) (stepMem n ea delta s) :=
  finish_completes (.inr writer) (by simp) (by simp)

theorem execJsr_completes (address : Addr) (writer : w = true) : Answers (Completes w s) (execJsr address s) := by
  unfold execJsr
  split
  · exact refused_answers _
  · exact finish_completes (.inr writer) (by simp) (by simp)

/-- Taking an interrupt, redirected or not, moves neither counter. -/
theorem interruptEntry_counters (vector : Addr) (b : Bool) (s : State) :
    (interruptEntry vector b s).cycles = s.cycles ∧ (interruptEntry vector b s).draws = s.draws := by
  cases h : s.nmiRedirects vector
  · rw [interruptEntry_eq vector b s h]
    simp
  · rw [interruptEntry_redirected vector b s h]
    simp

end

/-- Every instruction completes with memory as it was, but for those that write it. -/
theorem exec_completes (i : Instr) (s : State) :
    Answers (Completes (writesMemory i.mnemonic i.mode) s) (exec i s) := by
  cases i with
  | adcIndX | adcZp | adcImm | adcAbs | adcIndY | adcZpX | adcAbsY | adcAbsX => exact addWithCarry_completes _ _
  | sbcIndX | sbcZp | sbcImm | sbcAbs | sbcIndY | sbcZpX | sbcAbsY | sbcAbsX => exact subWithBorrow_completes _ _
  | bcc | bcs | beq | bmi | bne | bpl | bvc | bvs => exact branch_completes _ _
  | staIndX | staZp | staAbs | staIndY | staZpX | staAbsY | staAbsX
  | stxZp | stxAbs | stxZpY | styZp | styAbs | styZpX => exact store_completes _ _ _ rfl
  | aslZp | aslAbs | aslZpX | aslAbsX | lsrZp | lsrAbs | lsrZpX | lsrAbsX
  | rolZp | rolAbs | rolZpX | rolAbsX | rorZp | rorAbs | rorZpX | rorAbsX => exact shiftMem_completes _ _ _ rfl
  | incZp | incAbs | incZpX | incAbsX | decZp | decAbs | decZpX | decAbsX => exact stepMem_completes _ _ _ rfl
  | pha | php => exact finish_completes (.inr rfl) (by simp) (by simp)
  | jsr => exact execJsr_completes _ rfl
  | brk =>
    obtain ⟨cycles, draws⟩ := interruptEntry_counters irqVector true (s.advance 2)
    exact finish_completes (.inr rfl) cycles draws
  | andIndX | andZp | andImm | andAbs | andIndY | andZpX | andAbsY | andAbsX
  | oraIndX | oraZp | oraImm | oraAbs | oraIndY | oraZpX | oraAbsY | oraAbsX
  | eorIndX | eorZp | eorImm | eorAbs | eorIndY | eorZpX | eorAbsY | eorAbsX
  | bitZp | bitAbs
  | cmpIndX | cmpZp | cmpImm | cmpAbs | cmpIndY | cmpZpX | cmpAbsY | cmpAbsX
  | cpxImm | cpxZp | cpxAbs | cpyImm | cpyZp | cpyAbs
  | aslAcc | lsrAcc | rolAcc | rorAcc | inx | dex | iny | dey
  | ldaIndX | ldaZp | ldaImm | ldaAbs | ldaIndY | ldaZpX | ldaAbsY | ldaAbsX
  | ldxImm | ldxZp | ldxAbs | ldxZpY | ldxAbsY | ldyImm | ldyZp | ldyAbs | ldyZpX | ldyAbsX
  | tax | tay | txa | tya | tsx | txs | pla | plp | clc | sec | cli | sei | cld | sed | clv | nop
  | jmpAbs | jmpInd | rts | rti => exact finish_completes_kept rfl rfl rfl

/-! The NMI latch -/

/-- The NMI pin, its request and the edges inside the step are as they were. -/
def NmiKept (s t : State) : Prop := t.nmiLine = s.nmiLine ∧ t.nmiPending = s.nmiPending ∧ t.during = s.during

section

variable {s t : State}

theorem nmiKept_keptByUpdates : KeptByUpdates (NmiKept s) where
  withA _ h := h
  withX _ h := h
  withY _ h := h
  withSp _ h := h
  withPc _ h := h
  withP _ h := h
  memWrite a v h := by simpa [NmiKept] using h
  finish _ h := h

/-- Without an NMI edge inside the step nothing redirects the taking of an interrupt, and it leaves the pin and its
request alone (60_exceptions.md R239). -/
theorem interruptEntry_nmiKept (vector : Addr) (b : Bool) (noEdge : s.during.nmiFalls = false) :
    NmiKept s (interruptEntry vector b s) := by
  have straight : s.nmiRedirects vector = false := by simp [State.nmiRedirects, noEdge]
  rw [interruptEntry_eq vector b s straight]
  simp [NmiKept]

theorem exec_nmiKept (i : Instr) (h : i ≠ .brk ∨ s.during.nmiFalls = false) : Answers (NmiKept s) (exec i s) := by
  refine exec_keeps nmiKept_keptByUpdates i (fun brk u hu => ?_) ⟨rfl, rfl, rfl⟩
  obtain ⟨line, pending, edges⟩ := hu
  have noEdge : u.during.nmiFalls = false := by rw [edges]; exact h.resolve_left (absurd brk)
  obtain ⟨line', pending', edges'⟩ := interruptEntry_nmiKept irqVector true noEdge
  exact ⟨line'.trans line, pending'.trans pending, edges'.trans edges⟩

end

/-- Settles O54: the list of the statement is `writesMemory`'s (`exec_completes`), no instruction moves a pin
(`exec_keepsPins`), and only a BRK with an NMI edge inside it touches the latch (`exec_nmiKept`). -/
theorem memoryHasItsWriters : Obligations.MemoryHasItsWriters := by
  unfold Obligations.MemoryHasItsWriters
  intro i s t h
  obtain ⟨mem, cycles, draws⟩ := exec_completes i s t h
  exact ⟨fun changed => of_decide_eq_true (mem.resolve_left changed), exec_keepsPins i s t h, cycles, draws,
    fun notServed => exec_nmiKept i notServed t h⟩

end Sys2Proof.Machine
end

section
/-! SUPPORT. The decoder and the encoder undo each other, and the op codes the matrix leaves blank (30_encoding.md R80
to R86). -/

namespace Sys2Proof.Machine

/-- Settles O49: the encoder's bytes are an op code of the matrix and its operand (`encode_isEncoding`), which the
decoder reads back whatever follows (`IsEncoding.decode`). -/
theorem decodeInvertsEncode : Obligations.DecodeInvertsEncode := by
  unfold Obligations.DecodeInvertsEncode
  exact fun i rest _ => (encode_isEncoding i).decode rest

/-! What the decoder accepts -/

/-- Whatever its operand, an instruction of the form is encoded with this op code. -/
def EncodedAs (op : Byte) : Form → Prop
  | .bare i => encode i = [op]
  | .byte f => ∀ b, encode (f b) = [op, b]
  | .word f => ∀ w, encode (f w) = [op, loByte w, hiByte w]

/-- The encoder writes the op code under which the matrix has the form (R84). -/
theorem formOf_encodedAs {op : Byte} {form : Form} (h : formOf op = some form) : EncodedAs op form := by
  unfold formOf at h
  split at h
  all_goals cases h
  all_goals
    next cell =>
      obtain ⟨-, rfl⟩ := BitVec.toNat_eq_nat.1 cell
      dsimp only [EncodedAs]
      intros
      rfl

/-- The bytes the decoder accepts are the encoding of its answer, whatever form the op code selects. -/
theorem encode_of_decode {bytes rest : List Byte} {i : Instr} (h : decode bytes = .ok (i, rest)) :
    bytes = encode i ++ rest := by
  unfold decode at h
  split at h
  next => cases h
  next op tail =>
    split at h
    next => cases h
    next form =>
      cases h
      have enc : encode i = [op] := formOf_encodedAs form
      simp [enc]
    next f form =>
      split at h
      next b _ =>
        cases h
        have enc : encode (f b) = [op, b] := formOf_encodedAs form b
        simp [enc]
      next => cases h
    next f form =>
      split at h
      next lo hi _ =>
        cases h
        have enc : encode (f (joinBytes hi lo)) = [op, loByte (joinBytes hi lo), hiByte (joinBytes hi lo)] :=
          formOf_encodedAs form _
        simp [enc]
      next => cases h
      next => cases h

/-- Each instruction of the syntax is a form of R85. -/
theorem all_wellFormed (i : Instr) : i.wellFormed = true := by cases i <;> rfl

/-- Settles O50: the bytes are the encoding of the answer (`encode_of_decode`), which like every instruction is
well-formed (`all_wellFormed`). -/
theorem encodeInvertsDecode : Obligations.EncodeInvertsDecode := by
  unfold Obligations.EncodeInvertsDecode
  exact fun bytes rest i h => ⟨encode_of_decode h, all_wellFormed i⟩

/-! The op codes the matrix leaves blank -/

/-- An op code is refused as undefined exactly where the matrix leaves it blank, whatever bytes follow. -/
theorem decode_undefined_iff (op : Byte) (rest : List Byte) :
    decode (op :: rest) = .error (.undefinedOpcode op) ↔ formOf op = none := by
  cases hf : formOf op with
  | none => simp [decode, hf]
  | some form =>
    cases form with
    | bare i => simp [decode, hf]
    | byte f => cases rest <;> simp [decode, hf]
    | word f =>
      match rest with
      | [] => simp [decode, hf]
      | [_] => simp [decode, hf]
      | _ :: _ :: _ => simp [decode, hf]

/-- The op codes under which the matrix has no form, in rising order. -/
def blankOpcodes : List Byte := ((List.range 256).map (BitVec.ofNat 8)).filter fun op => (formOf op).isNone

theorem mem_blankOpcodes (op : Byte) : op ∈ blankOpcodes ↔ formOf op = none := by
  have listed : op ∈ (List.range 256).map (BitVec.ofNat 8) :=
    List.mem_map.2 ⟨op.toNat, List.mem_range.2 op.isLt, by simp⟩
  simp [blankOpcodes, listed]

/-- A blank op code at `PC` calls for no operand bytes, and the fetch answers it. -/
theorem fetchInstr_undefined {s : State} (blank : formOf (s.memRead .opcode s.pc) = none) :
    fetchInstr s = .error (s.memRead .opcode s.pc) := by
  simp [fetchInstr, fetchBytes, opcodeLength, decode, blank]

theorem step_undefined {s : State} (h : s.aboutToExecute) (blank : formOf (s.memRead .opcode s.pc) = none) :
    step s = .refused (.undefinedOpcode (s.memRead .opcode s.pc)) := by
  obtain ⟨hs, hd, hr, hc⟩ := h
  have hact : act s = .refused (.undefinedOpcode (s.memRead .opcode s.pc)) := by
    simp [act, hc, instructionStep, fetchInstr_undefined blank]
  rw [step_alone s hs hd hr, hact]

/-- Settles O51: the decoder refuses what the matrix leaves blank (`decode_undefined_iff`), the blanks are the list's
(`mem_blankOpcodes`, and the list is in rising order too), and a step that fetches one is refused (`step_undefined`). -/
theorem undefinedOpcodesAreTheListed105 : Obligations.UndefinedOpcodesAreTheListed105 := by
  unfold Obligations.UndefinedOpcodesAreTheListed105
  refine ⟨fun op rest => ?_, fun s h refused => step_undefined h ((decode_undefined_iff _ []).1 refused)⟩
  rw [decode_undefined_iff, ← mem_blankOpcodes]
  exact Iff.of_eq (congrArg (op ∈ ·) (by decide))

/-- Settles O48: seven of the words are the encoder's (`decodeInvertsEncode`), and `$02` is blank in the matrix. -/
theorem knownWordsDecode : Obligations.KnownWordsDecode := by
  unfold Obligations.KnownWordsDecode
  exact ⟨decodeInvertsEncode (.ldaImm 0x7F) [] rfl, decodeInvertsEncode (.jmpInd 0x30FF) [] rfl,
    decodeInvertsEncode .aslAcc [0xEA] rfl, decodeInvertsEncode (.bne 0xFB) [] rfl,
    decodeInvertsEncode (.staIndY 0x40) [] rfl, decodeInvertsEncode .brk [] rfl,
    decodeInvertsEncode (.adcAbsX 0x1234) [] rfl, (decode_undefined_iff 0x02 []).2 rfl⟩

end Sys2Proof.Machine
end

section
/-! SUPPORT. Which steps have no next state: those that fetch a blank op code, and a JSR that overwrites itself
(30_encoding.md R86; 44_branch_jump.md R191; 60_exceptions.md R220). -/

namespace Sys2Proof.Machine

open Sys2Proof.Stmt

/-- The result is a next state, or a refusal for a reason that the predicate admits; it is no fault. -/
def NextOrRefused (reason : Refusal → Prop) (r : Result) : Prop :=
  (∃ t, r = .next t) ∨ ∃ c, r = .refused c ∧ reason c

/-! An instruction -/

theorem addWithCarry_completed (n : Nat) (m : Byte) (s : State) : ∃ t, addWithCarry n m s = .next t := by
  unfold addWithCarry
  split <;> exact ⟨_, rfl⟩

theorem subWithBorrow_completed (n : Nat) (m : Byte) (s : State) : ∃ t, subWithBorrow n m s = .next t := by
  unfold subWithBorrow
  split <;> exact ⟨_, rfl⟩

/-- Every instruction but JSR completes, on any operand and in any state (R220). -/
theorem exec_completed_or_jsr (i : Instr) (s : State) : (∃ t, exec i s = .next t) ∨ ∃ w, i = .jsr w := by
  cases i with
  | jsr w => exact .inr ⟨w, rfl⟩
  | adcIndX | adcZp | adcImm | adcAbs | adcIndY | adcZpX | adcAbsY | adcAbsX =>
    exact .inl (addWithCarry_completed _ _ s)
  | sbcIndX | sbcZp | sbcImm | sbcAbs | sbcIndY | sbcZpX | sbcAbsY | sbcAbsX =>
    exact .inl (subWithBorrow_completed _ _ s)
  | bcc | bcs | beq | bmi | bne | bpl | bvc | bvs => exact .inl ⟨_, branch_next _ _ s⟩
  | _ => exact .inl ⟨_, rfl⟩

/-- The model's test of R191 in the statements' terms: an operand byte and a pushed byte have one location. -/
theorem jsrOverwritesOperand_iff (s : State) : jsrOverwritesOperand s = true ↔
    ∃ k ∈ [1, 2], ∃ sp ∈ [s.sp, s.sp - 1], s.loc (s.pc + BitVec.ofNat 16 k) = s.loc (page1 sp) := by
  have test : jsrOverwritesOperand s = true ↔ ∃ sp ∈ [s.sp, s.sp - 1], ∃ k ∈ [1, 2],
      s.loc (page1 sp) = s.loc (s.pc + BitVec.ofNat 16 k) := by
    simp [jsrOverwritesOperand, stackAddr_eq_page1]
  rw [test]
  exact ⟨fun ⟨sp, hsp, k, hk, same⟩ => ⟨k, hk, sp, hsp, same.symm⟩,
    fun ⟨k, hk, sp, hsp, same⟩ => ⟨sp, hsp, k, hk, same.symm⟩⟩

/-- JSR is refused where it overwrites its operand, and completes elsewhere. -/
theorem execJsr_answer (w : Addr) (s : State) :
    NextOrRefused (fun c => c = .pushOverOperand s.pc ∧ jsrOverwritesOperand s = true) (execJsr w s) := by
  unfold execJsr
  split
  next overwrites => exact .inr ⟨_, rfl, rfl, overwrites⟩
  next => exact .inl ⟨_, rfl⟩

/-! The instruction at `PC`, and a step -/

theorem runInstr_of_next {i : Instr} {s t : State} (h : exec i s = .next t) :
    runInstr i s = .next { t with cycles := s.cycles + cyclesOf i s } := by
  simp [runInstr, h]

theorem runInstr_of_refused {i : Instr} {s : State} {c : Refusal} (h : exec i s = .refused c) :
    runInstr i s = .refused c := by
  simp [runInstr, h]

/-- The two reasons for which the instruction at `PC` is refused. -/
inductive RefusalReason (s : State) : Refusal → Prop where
  | undefinedOpcode (blank : formOf (s.memRead .opcode s.pc) = none) :
      RefusalReason s (.undefinedOpcode (s.memRead .opcode s.pc))
  | pushOverOperand {w : Addr} (fetched : fetchInstr s = .ok (.jsr w)) (overwrites : jsrOverwritesOperand s = true) :
      RefusalReason s (.pushOverOperand s.pc)

theorem instructionStep_answer (s : State) : NextOrRefused (RefusalReason s) (instructionStep s) := by
  cases hf : fetchInstr s with
  | error op =>
    obtain ⟨rfl, blank⟩ := fetchInstr_error s op hf
    have refused : instructionStep s = .refused (.undefinedOpcode (s.memRead .opcode s.pc)) := by
      simp [instructionStep, hf]
    exact .inr ⟨_, refused, .undefinedOpcode blank⟩
  | ok i =>
    have run : instructionStep s = runInstr i s := by simp [instructionStep, hf]
    rw [run]
    obtain ⟨t, he⟩ | ⟨w, rfl⟩ := exec_completed_or_jsr i s
    · exact .inl ⟨_, runInstr_of_next he⟩
    · obtain ⟨t, he⟩ | ⟨c, he, rfl, overwrites⟩ := execJsr_answer w s
      · exact .inl ⟨_, runInstr_of_next he⟩
      · exact .inr ⟨_, runInstr_of_refused he, .pushOverOperand hf overwrites⟩

/-- Only an instruction is refused: holding the CPU and the three sequences always go on. -/
theorem act_answer (s : State) :
    NextOrRefused (fun c => chooseAct s = .instruction ∧ RefusalReason s c) (act s) := by
  unfold act
  cases hc : chooseAct s with
  | idle | resetSequence | nmiSequence | irqSequence => exact .inl ⟨_, rfl⟩
  | instruction => exact (instructionStep_answer s).imp id fun ⟨c, he, reason⟩ => ⟨c, he, rfl, reason⟩

/-- A CPU step is refused for what its act is refused in the state in which it works. -/
theorem cpuStep_answer (d : During) (dma : List DmaWrite) (s : State) :
    NextOrRefused (fun c => chooseAct (beginStep d dma s) = .instruction ∧ RefusalReason (beginStep d dma s) c)
      (cpuStep d dma s) := by
  obtain ⟨t, ha⟩ | ⟨c, ha, reason⟩ := act_answer (beginStep d dma s)
  · left
    simp [cpuStep, ha]
  · exact .inr ⟨c, by simp [cpuStep, ha], reason⟩

/-- A step is a turn of the environment, which goes on, or the CPU step of the head of the schedule, with nothing
inside it where there is none. -/
theorem step_eq_cpuStep (s : State) : (∃ t, step s = .next t) ∨ ∃ (d : During) (dma : List DmaWrite),
    ((s.schedule = [] ∧ d = During.none ∧ dma = []) ∨ s.schedule.head? = some (.cpu d dma)) ∧
    step s = cpuStep d dma { s with schedule := s.schedule.tail } := by
  unfold step turn
  split
  next hs =>
    have same : { s with schedule := s.schedule.tail } = s := by
      cases s
      simp_all
    exact .inr ⟨During.none, [], .inl ⟨hs, rfl, rfl⟩, by rw [same]⟩
  next e rest hs => exact .inl ⟨_, rfl⟩
  next d dma rest hs => exact .inr ⟨d, dma, .inr (by simp [hs]), by simp [hs]⟩

/-- Settles O52: a CPU step is refused for the two reasons only (`step_eq_cpuStep`, `cpuStep_answer`), and every
instruction but JSR completes (`exec_completed_or_jsr`). -/
theorem onlyTwoThingsAreRefused : Obligations.OnlyTwoThingsAreRefused := by
  unfold Obligations.OnlyTwoThingsAreRefused
  refine ⟨fun s => ?_, fun i s => (exec_completed_or_jsr i s).imp id fun ⟨w, jsr⟩ => by rw [jsr]; rfl⟩
  obtain goesOn | ⟨d, dma, head, run⟩ := step_eq_cpuStep s
  · exact .inl goesOn
  rw [run]
  refine (cpuStep_answer d dma _).imp id fun ⟨c, refused, chosen, reason⟩ => ⟨d, dma, _, head, rfl, chosen, ?_⟩
  cases reason with
  | undefinedOpcode blank => exact .inl ⟨refused, blank⟩
  | @pushOverOperand w fetched overwrites =>
    exact .inr ⟨refused, ⟨w, fetched⟩, (jsrOverwritesOperand_iff _).1 overwrites⟩

end Sys2Proof.Machine
end

section
/-! SUPPORT. Bytes, addresses and the effective addresses in plain arithmetic (40_addressing_modes.md R104 to R112). -/

namespace Sys2Proof.Machine

/-! Bytes and addresses -/

theorem loByte_toNat (a : Addr) : (loByte a).toNat = a.toNat % 256 := by
  simp [loByte, BitVec.extractLsb'_toNat]

theorem hiByte_toNat (a : Addr) : (hiByte a).toNat = a.toNat / 256 := by
  have := a.isLt
  simp only [hiByte, BitVec.extractLsb'_toNat, Nat.shiftRight_eq_div_pow]
  omega

/-- Two addresses are in one page. -/
theorem hiByte_eq_iff (a b : Addr) : hiByte a = hiByte b ↔ a.toNat / 256 = b.toNat / 256 := by
  rw [← BitVec.toNat_inj, hiByte_toNat, hiByte_toNat]

theorem joinBytes_zero_toNat (b : Byte) : (joinBytes 0x00 b).toNat = b.toNat := by
  simp [joinBytes_toNat]

/-- An address of page zero is its low byte. -/
theorem joinBytes_zero (b : Byte) : joinBytes 0x00 b = BitVec.ofNat 16 b.toNat := by
  apply BitVec.eq_of_toNat_eq
  have := b.isLt
  rw [joinBytes_zero_toNat, BitVec.toNat_ofNat]
  omega

/-- An index is added without sign, modulo 2^16 (R107, R108, R112). -/
theorem add_zext16_toNat (base : Addr) (index : Byte) :
    (base + zext16 index).toNat = (base.toNat + index.toNat) % 65536 := by
  have := index.isLt
  simp only [zext16, BitVec.toNat_add, BitVec.toNat_setWidth]
  omega

/-! The effective addresses -/

/-- A pointer in page zero, low byte first; the address of its second byte wraps in page zero (R111, R112). -/
theorem zpPointer_toNat (s : State) (t : Byte) :
    (zpPointer s t).toNat =
      (s.memRead .pointerLow (BitVec.ofNat 16 t.toNat)).toNat +
        256 * (s.memRead .pointerHigh (BitVec.ofNat 16 ((t.toNat + 1) % 256))).toNat := by
  have second : (t + 1).toNat = (t.toNat + 1) % 256 := BitVec.toNat_add t 1
  rw [zpPointer, joinBytes_toNat, joinBytes_zero, joinBytes_zero, second]
  omega

/-- The pointer of `(IND,X)` is indexed in page zero, and its second byte's address wraps there once more. -/
theorem eaIndX_toNat (s : State) (z : Byte) :
    (eaIndX s z).toNat =
      (s.memRead .pointerLow (BitVec.ofNat 16 ((z.toNat + s.x.toNat) % 256))).toNat +
        256 * (s.memRead .pointerHigh (BitVec.ofNat 16 ((z.toNat + s.x.toNat + 1) % 256))).toNat := by
  have first : (z + s.x).toNat = (z.toNat + s.x.toNat) % 256 := BitVec.toNat_add z s.x
  rw [eaIndX, zpPointer_toNat, first, Nat.mod_add_mod]

/-- The target of a branch: the signed offset from the next instruction, modulo 2^16 (R110). -/
theorem branchTarget_eq_ofInt (s : State) (r : Byte) :
    branchTarget s r = BitVec.ofInt 16 ((s.pc.toNat : Int) + 2 + r.toInt) := by
  have next : BitVec.ofInt 16 ((s.pc.toNat : Int) + 2) = s.pc + 2 := by
    rw [BitVec.ofInt_add, BitVec.ofInt_natCast, BitVec.ofNat_toNat, BitVec.setWidth_eq]
    rfl
  rw [BitVec.ofInt_add, next]
  rfl

/-- Settles O42: page zero keeps the low byte of a sum (`joinBytes_zero_toNat`), an absolute index is added modulo 2^16
(`add_zext16_toNat`), and a pointer is two bytes of page zero (`zpPointer_toNat`). -/
theorem indexedAddressesWrap : Obligations.IndexedAddressesWrap := by
  unfold Obligations.IndexedAddressesWrap
  intro s z w
  have indY : (eaIndY s z).toNat = ((zpPointer s z).toNat + s.y.toNat) % 65536 := add_zext16_toNat _ s.y
  rw [zpPointer_toNat] at indY
  exact ⟨joinBytes_zero_toNat z,
    (joinBytes_zero_toNat _).trans (BitVec.toNat_add z s.x), (joinBytes_zero_toNat _).trans (BitVec.toNat_add z s.y),
    add_zext16_toNat w s.x, add_zext16_toNat w s.y, eaIndX_toNat s z, indY⟩

end Sys2Proof.Machine
end

section
/-! SUPPORT. The cycle counts: page crossings and branches in plain arithmetic, and every cell of the matrix
(40_addressing_modes.md R114; 70_reset_and_hazards.md R270, R271). -/

namespace Sys2Proof.Machine

/-! The cells whose count depends on the state -/

/-- An index carries out of the low byte of a base where the sum leaves the base's page; the cell then takes one cycle
more (R114). -/
theorem add_pageCross {base : Nat} {low : Byte} (hlow : low.toNat = base % 256) (n : Nat) (index : Byte) :
    n + pageCross low index = if base / 256 ≠ (base + index.toNat) / 256 then n + 1 else n := by
  have := index.isLt
  unfold pageCross
  split_ifs <;> omega

theorem add_pageCross_loByte (n : Nat) (w : Addr) (index : Byte) :
    n + pageCross (loByte w) index = if w.toNat / 256 ≠ (w.toNat + index.toNat) / 256 then n + 1 else n :=
  add_pageCross (loByte_toNat w) n index

/-- The base of `(IND),Y` is the pointer, whose low byte decides (R112, R114). -/
theorem add_pageCrossInd (n : Nat) (s : State) (z high : Byte) {base : Nat}
    (hbase : base = (s.memRead .pointerLow (BitVec.ofNat 16 z.toNat)).toNat + 256 * high.toNat) :
    n + pageCrossInd s z = if base / 256 ≠ (base + s.y.toNat) / 256 then n + 1 else n := by
  rw [pageCrossInd, joinBytes_zero]
  refine add_pageCross ?_ n s.y
  have := (s.memRead .pointerLow (BitVec.ofNat 16 z.toNat)).isLt
  omega

theorem branchCycles_eq (taken : Bool) (s : State) (r : Byte) :
    branchCycles taken s r =
      if taken then
        if (BitVec.ofInt 16 ((s.pc.toNat : Int) + 2 + r.toInt)).toNat / 256 = (s.pc.toNat + 2) % 65536 / 256
        then 3 else 4
      else 2 := by
  have next : (s.pc + 2).toNat = (s.pc.toNat + 2) % 65536 := BitVec.toNat_add s.pc 2
  simp only [branchCycles, hiByte_eq_iff, branchTarget_eq_ofInt, next]

/-! The least and the greatest count -/

theorem pageCross_le_one (low index : Byte) : pageCross low index ≤ 1 := by
  unfold pageCross
  split <;> decide

theorem branchCycles_bounds (taken : Bool) (s : State) (r : Byte) :
    2 ≤ branchCycles taken s r ∧ branchCycles taken s r ≤ 7 := by
  unfold branchCycles
  split_ifs <;> decide

/-- A cell of at least 2 and at most 6 cycles stays within 2 to 7 when a page is crossed. -/
theorem add_pageCross_bounds {n : Nat} (least : 2 ≤ n) (most : n ≤ 6) (low index : Byte) :
    2 ≤ n + pageCross low index ∧ n + pageCross low index ≤ 7 := by
  have := pageCross_le_one low index
  omega

/-- No instruction takes less than 2 or more than 7 cycles, page crossings and branches included (R270, R271). -/
theorem cyclesOf_bounds (i : Instr) (s : State) : 2 ≤ cyclesOf i s ∧ cyclesOf i s ≤ 7 := by
  cases i with
  | bcc | bcs | beq | bmi | bne | bpl | bvc | bvs => exact branchCycles_bounds _ s _
  | adcAbsX | andAbsX | cmpAbsX | eorAbsX | ldaAbsX | ldyAbsX | oraAbsX | sbcAbsX
  | adcAbsY | andAbsY | cmpAbsY | eorAbsY | ldaAbsY | ldxAbsY | oraAbsY | sbcAbsY
  | adcIndY | andIndY | cmpIndY | eorIndY | ldaIndY | oraIndY | sbcIndY =>
    exact add_pageCross_bounds (by decide) (by decide) _ _
  | _ => exact ⟨Nat.le_of_ble_eq_true rfl, Nat.le_of_ble_eq_true rfl⟩

/-! The cells of the matrix -/

/-- The cells of a list take one count when the list of their counts is that count repeated. -/
theorem cyclesOf_of_map_eq {s : State} {cells : List Instr} {n : Nat}
    (h : cells.map (cyclesOf · s) = List.replicate cells.length n) : ∀ i ∈ cells, cyclesOf i s = n :=
  List.map_eq_replicate_iff.1 h

/-- Each branch with the condition under which it is taken takes `branchCycles` (R271). -/
theorem cyclesOf_branch (s : State) (r : Byte) : ∀ b ∈ ([
    (!s.p.c, .bcc r), (s.p.c, .bcs r), (s.p.z, .beq r), (s.p.n, .bmi r), (!s.p.z, .bne r),
    (!s.p.n, .bpl r), (!s.p.v, .bvc r), (s.p.v, .bvs r)] : List (Bool × Instr)),
    cyclesOf b.2 s = branchCycles b.1 s r :=
  List.map_inj_left.1 rfl

/-- Settles O59: the bounds are `cyclesOf_bounds`; an unmarked cell has its count in the table, an indexed read adds its
page crossing (`add_pageCross_loByte`, `add_pageCrossInd`), a branch goes by its target's page (`branchCycles_eq`). -/
theorem cyclesBetweenTwoAndSeven : Obligations.CyclesBetweenTwoAndSeven := by
  unfold Obligations.CyclesBetweenTwoAndSeven
  refine ⟨cyclesOf_bounds, fun s m z r w => ⟨cyclesOf_of_map_eq rfl, cyclesOf_of_map_eq rfl, cyclesOf_of_map_eq rfl,
    cyclesOf_of_map_eq rfl, cyclesOf_of_map_eq rfl, cyclesOf_of_map_eq rfl, cyclesOf_of_map_eq rfl,
    fun i hi => ?absX, fun i hi => ?absY, fun i hi base hbase => ?indY, fun taken i hi => ?branch⟩⟩
  case absX =>
    have cell : cyclesOf i s = 4 + pageCross (loByte w) s.x := cyclesOf_of_map_eq rfl i hi
    rw [cell, add_pageCross_loByte]
  case absY =>
    have cell : cyclesOf i s = 4 + pageCross (loByte w) s.y := cyclesOf_of_map_eq rfl i hi
    rw [cell, add_pageCross_loByte]
  case indY =>
    have cell : cyclesOf i s = 5 + pageCrossInd s z := cyclesOf_of_map_eq rfl i hi
    rw [cell, add_pageCrossInd 5 s z _ hbase]
  case branch =>
    have cell : cyclesOf i s = branchCycles taken s r := cyclesOf_branch s r (taken, i) hi
    rw [cell, branchCycles_eq]

end Sys2Proof.Machine
end

section
/-! SUPPORT. Loads, stores and transfers: what their shared meanings answer, in the statements' plain arithmetic
(10_state.md R25, R26, R37; 41_load_store_transfer.md R120 to R131). -/

namespace Sys2Proof.Machine

open Sys2Proof.Stmt

/-! The flags and the end of an instruction -/

/-- Bit 7 is set from 128 on (10_state.md R37). -/
theorem Flags.setNZ_eq_nz (p : Flags) (v : Byte) : p.setNZ v = nz v p := by
  have negative : v.getLsbD 7 = decide (128 ≤ v.toNat) := BitVec.msb_eq_decide v
  have zero : (v == 0x00) = decide (v.toNat = 0) := by
    rw [Bool.eq_iff_iff, beq_iff_eq, decide_eq_true_iff, ← BitVec.toNat_inj]
    rfl
  rw [setNZ, nz, negative, zero]

/-- An instruction of `n` bytes that ends with its advance. -/
theorem done_advance (n : Nat) (s : State) : done (s.advance n) = .next (passed n s) := by
  have pc : s.pc + BitVec.ofNat 16 n = BitVec.ofNat 16 (s.pc.toNat + n) := by
    rw [BitVec.ofNat_add, BitVec.ofNat_toNat, BitVec.setWidth_eq]
  rw [State.advance, pc]
  rfl

/-! Loads and transfers -/

section

variable (n : Nat) (m : Byte) (s : State)

theorem loadA_passed : loadA n m s = .next { passed n s with a := m, p := nz m s.p } := by
  rw [loadA, done_advance, Flags.setNZ_eq_nz]
  rfl

theorem loadX_passed : loadX n m s = .next { passed n s with x := m, p := nz m s.p } := by
  rw [loadX, done_advance, Flags.setNZ_eq_nz]
  rfl

theorem loadY_passed : loadY n m s = .next { passed n s with y := m, p := nz m s.p } := by
  rw [loadY, done_advance, Flags.setNZ_eq_nz]
  rfl

end

/-! Stores -/

/-- A write followed by the advance is a store, whatever the flags become. -/
theorem passed_memWrite_stores (n : Nat) (ea : Addr) (v : Byte) (p : Flags) (s : State) :
    Stores n ea v p s (passed n ((s.memWrite ea v).withP p)) := by
  refine ⟨?_, memWrite_storesOnly s ea v⟩
  rw [s.memWrite_eq]
  rfl

/-- A store completes and writes no flag (R123 to R125). -/
theorem store_stores (n : Nat) (ea : Addr) (v : Byte) (s : State) :
    ∃ t, store n ea v s = .next t ∧ Stores n ea v s.p s t := by
  have flags : (s.memWrite ea v).withP s.p = s.memWrite ea v := by rw [s.memWrite_eq]; rfl
  exact ⟨_, done_advance n _, flags ▸ passed_memWrite_stores n ea v s.p s⟩

/-! The statements -/

/-- Settles O3: each of the seven modes is one `store` of `A` at its effective address (`store_stores`). -/
theorem staStoresAccumulator : Obligations.StaStoresAccumulator := by
  unfold Obligations.StaStoresAccumulator
  intro s z w
  exact ⟨store_stores 2 (eaZp z) s.a s, store_stores 2 (eaZpX s z) s.a s, store_stores 3 (eaAbs w) s.a s,
    store_stores 3 (eaAbsX s w) s.a s, store_stores 3 (eaAbsY s w) s.a s, store_stores 2 (eaIndX s z) s.a s,
    store_stores 2 (eaIndY s z) s.a s, rfl, rfl, rfl, rfl, rfl, rfl, rfl⟩

/-- Settles O4: each mode is one `store` of `X` or of `Y` at its effective address (`store_stores`). -/
theorem stxStyStoreIndexes : Obligations.StxStyStoreIndexes := by
  unfold Obligations.StxStyStoreIndexes
  intro s z w
  exact ⟨store_stores 2 (eaZp z) s.x s, store_stores 2 (eaZpY s z) s.x s, store_stores 3 (eaAbs w) s.x s,
    store_stores 2 (eaZp z) s.y s, store_stores 2 (eaZpX s z) s.y s, store_stores 3 (eaAbs w) s.y s,
    rfl, rfl, rfl, rfl, rfl, rfl⟩

/-- Settles O1: each of the eight modes is one `loadA` of its operand (`loadA_passed`). -/
theorem ldaLoadsAccumulator : Obligations.LdaLoadsAccumulator := by
  unfold Obligations.LdaLoadsAccumulator
  intro s m z w
  exact ⟨loadA_passed 2 m s, loadA_passed 2 (s.operand (eaZp z)) s, loadA_passed 2 (s.operand (eaZpX s z)) s,
    loadA_passed 3 (s.operand (eaAbs w)) s, loadA_passed 3 (s.operand (eaAbsX s w)) s,
    loadA_passed 3 (s.operand (eaAbsY s w)) s, loadA_passed 2 (s.operand (eaIndX s z)) s,
    loadA_passed 2 (s.operand (eaIndY s z)) s, rfl, rfl, rfl, rfl, rfl, rfl, rfl, rfl⟩

/-- Settles O2: each mode is one `loadX` or `loadY` of its operand, LDX indexed by `Y` and LDY by `X` (`loadX_passed`,
`loadY_passed`). -/
theorem ldxLdyLoadIndexes : Obligations.LdxLdyLoadIndexes := by
  unfold Obligations.LdxLdyLoadIndexes
  intro s m z w
  exact ⟨loadX_passed 2 m s, loadX_passed 2 (s.operand (eaZp z)) s, loadX_passed 2 (s.operand (eaZpY s z)) s,
    loadX_passed 3 (s.operand (eaAbs w)) s, loadX_passed 3 (s.operand (eaAbsY s w)) s,
    loadY_passed 2 m s, loadY_passed 2 (s.operand (eaZp z)) s, loadY_passed 2 (s.operand (eaZpX s z)) s,
    loadY_passed 3 (s.operand (eaAbs w)) s, loadY_passed 3 (s.operand (eaAbsX s w)) s,
    rfl, rfl, rfl, rfl, rfl, rfl, rfl, rfl, rfl, rfl⟩

/-- Settles O5: five transfers are one-byte loads from a register (`loadA_passed`, `loadX_passed`, `loadY_passed`), and
TXS sets `S` alone. -/
theorem transfersMoveRegisters : Obligations.TransfersMoveRegisters := by
  unfold Obligations.TransfersMoveRegisters
  intro s
  exact ⟨loadX_passed 1 s.a s, loadY_passed 1 s.a s, loadA_passed 1 s.x s, loadA_passed 1 s.y s,
    loadX_passed 1 s.sp s, done_advance 1 (s.withSp s.x), rfl, rfl, rfl, rfl, rfl, rfl⟩

end Sys2Proof.Machine
end

section
/-! SUPPORT. Arithmetic and logic: the binary addition and its use for differences, packed decimal, and what each
shared meaning answers in the statements' plain arithmetic (42_arithmetic_logic.md R140 to R151). -/

namespace Sys2Proof.Machine

open Sys2Proof.Stmt

/-! Single bits of a byte -/

theorem and_0x80_ne_zero (v : Byte) : (v &&& 0x80 != 0x00) = v.msb := by
  have bit7 : v &&& 0x80 = if v.msb then 0x80 else 0x00 := BitVec.and_twoPow v 7
  rw [bit7]
  cases v.msb <;> rfl

theorem getLsbD_six (v : Byte) : v.getLsbD 6 = decide (64 ≤ v.toNat % 128) := by
  have bit6 : v.getLsbD 6 = decide (v.toNat / 64 % 2 = 1) := Nat.testBit_eq_decide_div_mod_eq
  rw [bit6, decide_eq_decide]
  omega

/-- The AND of two bytes is zero where they have no common bit. -/
theorem and_beq_zero (a m : Byte) :
    (a &&& m == 0x00) = decide (∀ k : Fin 8, (a.getLsbD k && m.getLsbD k) = false) := by
  rw [Bool.eq_iff_iff, beq_iff_eq, decide_eq_true_iff, BitVec.eq_of_getLsbD_eq_iff, Fin.forall_iff]
  simp

/-! The binary addition (R149) -/

section

variable (a m : Byte) (c : Bool)

theorem addBinary_r_toNat : (addBinary a m c).r.toNat = (a.toNat + m.toNat + c.toNat) % 256 :=
  BitVec.toNat_ofNat _ 8

/-- The overflow in bits: the operands agree in bit 7, and the sum does not. -/
theorem addBinary_vout_iff_msb :
    (addBinary a m c).vout = true ↔ a.msb = m.msb ∧ (addBinary a m c).r.msb ≠ a.msb := by
  have bit7 : (addBinary a m c).vout =
      ((a ^^^ (addBinary a m c).r) &&& (m ^^^ (addBinary a m c).r)).msb := and_0x80_ne_zero _
  rw [bit7, BitVec.msb_and, BitVec.msb_xor, BitVec.msb_xor]
  cases a.msb <;> cases m.msb <;> simp

/-- The overflow in numbers: the signed sum lies outside −128..127. -/
theorem addBinary_vout : (addBinary a m c).vout = signedOverflow (a.toInt + m.toInt + c.toNat) := by
  have ha := a.isLt
  have hm := m.isLt
  have hc := c.toNat_le
  rw [Bool.eq_iff_iff, addBinary_vout_iff_msb, signedOverflow, decide_eq_true_iff]
  simp only [BitVec.msb_eq_decide, addBinary_r_toNat, BitVec.toInt_eq_toNat_cond, ne_eq, decide_eq_decide]
  split_ifs <;> omega

end

/-- Settles O8: sum and carry are the definition's, and the overflow is read in numbers (`addBinary_vout`) and in bits
(`addBinary_vout_iff_msb`). -/
theorem addBinaryIsExactSum : Obligations.AddBinaryIsExactSum := by
  unfold Obligations.AddBinaryIsExactSum
  intro a m c
  refine ⟨addBinary_r_toNat a m c, decide_eq_true_iff, ?_, addBinary_vout_iff_msb a m c⟩
  rw [addBinary_vout, signedOverflow, decide_eq_true_iff]

/-! Adding the complement subtracts (R141, R145) -/

theorem complement_toNat (m : Byte) : (m ^^^ 0xFF).toNat = 255 - m.toNat := by
  have not : m ^^^ 0xFF = ~~~m := BitVec.xor_allOnes
  rw [not, BitVec.toNat_not]

theorem complement_toInt (m : Byte) : (m ^^^ 0xFF).toInt = -1 - m.toInt := by
  have := m.isLt
  simp only [BitVec.toInt_eq_toNat_cond, complement_toNat]
  split_ifs <;> omega

section

variable (a m : Byte) (c : Bool)

theorem addBinary_complement_r :
    (addBinary a (m ^^^ 0xFF) c).r = BitVec.ofInt 8 ((a.toNat : Int) - m.toNat - (1 - c.toNat)) := by
  have := m.isLt
  apply BitVec.eq_of_toNat_eq
  rw [addBinary_r_toNat, complement_toNat, BitVec.toNat_ofInt]
  omega

/-- The carry out is 1 where nothing is borrowed. -/
theorem addBinary_complement_cout :
    (addBinary a (m ^^^ 0xFF) c).cout = decide (m.toNat + (1 - c.toNat) ≤ a.toNat) := by
  have := m.isLt
  have := c.toNat_le
  rw [addBinary, complement_toNat, decide_eq_decide]
  omega

theorem addBinary_complement_vout :
    (addBinary a (m ^^^ 0xFF) c).vout = signedOverflow (a.toInt - m.toInt - (1 - c.toNat)) := by
  rw [addBinary_vout, complement_toInt]
  congr 1
  omega

end

/-! Packed decimal (R150) -/

theorem bcd_eq_some_iff (v : Byte) (n : Nat) : bcd v = some n ↔ validBcd v = true ∧ bcdValue v = n := by
  simp [bcd, validBcd, bcdValue]

theorem bcd_toBcd {n : Nat} (h : n < 100) : bcd (toBcd n) = some n := by
  have value : (toBcd n).toNat = n / 10 * 16 + n % 10 := by
    rw [toBcd, BitVec.toNat_ofNat]
    omega
  rw [bcd, value, if_pos (by omega)]
  congr 1
  omega

section

variable {a m : Byte} {x y : Nat} (ha : bcd a = some x) (hm : bcd m = some y) (c : Bool)

include ha hm

theorem validBcd_and : (validBcd a && validBcd m) = true := by
  rw [((bcd_eq_some_iff a x).1 ha).1, ((bcd_eq_some_iff m y).1 hm).1]
  rfl

theorem addDecimal_eq : addDecimal a m c = (toBcd ((x + y + c.toNat) % 100), decide (100 ≤ x + y + c.toNat)) := by
  obtain ⟨-, rfl⟩ := (bcd_eq_some_iff a x).1 ha
  obtain ⟨-, rfl⟩ := (bcd_eq_some_iff m y).1 hm
  rfl

theorem subDecimal_eq :
    subDecimal a m c =
      (toBcd (((x : Int) - y - (1 - c.toNat)) % 100).toNat, decide (0 ≤ (x : Int) - y - (1 - c.toNat))) := by
  obtain ⟨-, rfl⟩ := (bcd_eq_some_iff a x).1 ha
  obtain ⟨-, rfl⟩ := (bcd_eq_some_iff m y).1 hm
  rfl

end

/-! ADC and SBC -/

theorem binaryResult_passed (n : Nat) (q : Sum) (s : State) :
    passed n (binaryResult q s) = { passed n s with a := q.r, p := { nz q.r s.p with c := q.cout, v := q.vout } } := by
  rw [binaryResult, Flags.setNZC, Flags.setNZ_eq_nz]
  rfl

section

variable (n : Nat) (m : Byte) (s : State)

/-- ADC completes with the sum, binary or decimal (R140, R150). -/
theorem addWithCarry_adds : ∃ t, addWithCarry n m s = .next t ∧ Adds n m s t := by
  cases hd : s.p.d
  case false =>
    rw [addWithCarry_binary n m s hd, done_advance]
    refine ⟨_, rfl, fun _ => ?_, fun decimal => absurd decimal (by simp [hd])⟩
    rw [binaryResult_passed, addBinary_vout]
    rfl
  case true =>
    rw [addWithCarry_decimal n m s hd, done_advance]
    refine ⟨_, rfl, fun binary => absurd binary (by simp [hd]), fun _ => ⟨rfl, fun x y hx hy => ?_⟩⟩
    rw [validBcd_and hx hy, addDecimal_eq hx hy]
    exact ⟨bcd_toBcd (Nat.mod_lt _ (by decide)), decide_eq_true_iff⟩

/-- SBC completes with the difference, binary or decimal (R141, R151). -/
theorem subWithBorrow_subtracts : ∃ t, subWithBorrow n m s = .next t ∧ Subtracts n m s t := by
  cases hd : s.p.d
  case false =>
    rw [subWithBorrow_binary n m s hd, done_advance]
    refine ⟨_, rfl, fun _ => ?_, fun decimal => absurd decimal (by simp [hd])⟩
    rw [binaryResult_passed, addBinary_complement_r, addBinary_complement_cout, addBinary_complement_vout]
  case true =>
    rw [subWithBorrow_decimal n m s hd, done_advance]
    refine ⟨_, rfl, fun binary => absurd binary (by simp [hd]), fun _ => ⟨rfl, fun x y hx hy => ?_⟩⟩
    rw [validBcd_and hx hy, subDecimal_eq hx hy]
    exact ⟨bcd_toBcd (by omega), decide_eq_true_iff⟩

/-! Compares, BIT and the logical operations -/

/-- A compare completes with the flags of the difference (R145 to R147). -/
theorem compare_compared (reg : Byte) : compare reg n m s = .next (compared n reg m s) := by
  have hr := reg.isLt
  have hm := m.isLt
  have difference : (addBinary reg (m ^^^ 0xFF) true).r.toNat = (reg.toNat + 256 - m.toNat) % 256 := by
    rw [addBinary_r_toNat, complement_toNat, Bool.toNat_true]
    congr 1
    omega
  have zero : decide ((reg.toNat + 256 - m.toNat) % 256 = 0) = decide (reg = m) := by
    rw [decide_eq_decide, ← BitVec.toNat_inj]
    omega
  have carry : (addBinary reg (m ^^^ 0xFF) true).cout = decide (m.toNat ≤ reg.toNat) :=
    addBinary_complement_cout reg m true
  rw [compare, done_advance, Flags.setNZC, Flags.setNZ_eq_nz, nz, difference, zero, carry]
  rfl

/-- BIT completes with Z from the common bits, and N and V from the operand (R148). -/
theorem bitTest_passed :
    bitTest n m s = .next
      { passed n s with
        p := { s.p with
               z := decide (∀ k : Fin 8, (s.a.getLsbD k && m.getLsbD k) = false)
               n := decide (128 ≤ m.toNat)
               v := decide (64 ≤ m.toNat % 128) } } := by
  have negative : m.getLsbD 7 = decide (128 ≤ m.toNat) := BitVec.msb_eq_decide m
  rw [bitTest, done_advance, and_beq_zero, negative, getLsbD_six]
  rfl

theorem logicA_passed (r : Byte) : logicA n r s = .next { passed n s with a := r, p := nz r s.p } := by
  rw [logicA, done_advance, Flags.setNZ_eq_nz]
  rfl

theorem andA_passed : andA n m s = .next { passed n s with a := s.a &&& m, p := nz (s.a &&& m) s.p } :=
  logicA_passed n s _

theorem orA_passed : orA n m s = .next { passed n s with a := s.a ||| m, p := nz (s.a ||| m) s.p } :=
  logicA_passed n s _

theorem eorA_passed : eorA n m s = .next { passed n s with a := s.a ^^^ m, p := nz (s.a ^^^ m) s.p } :=
  logicA_passed n s _

end

/-! The statements -/

/-- Settles O6: each of the eight modes is one `addWithCarry` of its operand (`addWithCarry_adds`). -/
theorem adcAdds : Obligations.AdcAdds := by
  unfold Obligations.AdcAdds
  intro s m z w
  exact ⟨addWithCarry_adds 2 m s, addWithCarry_adds 2 (s.operand (eaZp z)) s,
    addWithCarry_adds 2 (s.operand (eaZpX s z)) s, addWithCarry_adds 3 (s.operand (eaAbs w)) s,
    addWithCarry_adds 3 (s.operand (eaAbsX s w)) s, addWithCarry_adds 3 (s.operand (eaAbsY s w)) s,
    addWithCarry_adds 2 (s.operand (eaIndX s z)) s, addWithCarry_adds 2 (s.operand (eaIndY s z)) s,
    rfl, rfl, rfl, rfl, rfl, rfl, rfl, rfl⟩

/-- Settles O7: each of the eight modes is one `subWithBorrow` of its operand (`subWithBorrow_subtracts`). -/
theorem sbcSubtracts : Obligations.SbcSubtracts := by
  unfold Obligations.SbcSubtracts
  intro s m z w
  exact ⟨subWithBorrow_subtracts 2 m s, subWithBorrow_subtracts 2 (s.operand (eaZp z)) s,
    subWithBorrow_subtracts 2 (s.operand (eaZpX s z)) s, subWithBorrow_subtracts 3 (s.operand (eaAbs w)) s,
    subWithBorrow_subtracts 3 (s.operand (eaAbsX s w)) s, subWithBorrow_subtracts 3 (s.operand (eaAbsY s w)) s,
    subWithBorrow_subtracts 2 (s.operand (eaIndX s z)) s, subWithBorrow_subtracts 2 (s.operand (eaIndY s z)) s,
    rfl, rfl, rfl, rfl, rfl, rfl, rfl, rfl⟩

/-- Settles O10: each of the eight modes is one `compare` of `A` with its operand (`compare_compared`). -/
theorem cmpComparesAccumulator : Obligations.CmpComparesAccumulator := by
  unfold Obligations.CmpComparesAccumulator
  intro s m z w
  exact ⟨compare_compared 2 m s s.a, compare_compared 2 (s.operand (eaZp z)) s s.a,
    compare_compared 2 (s.operand (eaZpX s z)) s s.a, compare_compared 3 (s.operand (eaAbs w)) s s.a,
    compare_compared 3 (s.operand (eaAbsX s w)) s s.a, compare_compared 3 (s.operand (eaAbsY s w)) s s.a,
    compare_compared 2 (s.operand (eaIndX s z)) s s.a, compare_compared 2 (s.operand (eaIndY s z)) s s.a,
    rfl, rfl, rfl, rfl, rfl, rfl, rfl, rfl⟩

/-- Settles O11: each mode is one `compare` of `X` or of `Y` with its operand (`compare_compared`). -/
theorem cpxCpyCompareIndexes : Obligations.CpxCpyCompareIndexes := by
  unfold Obligations.CpxCpyCompareIndexes
  intro s m z w
  exact ⟨compare_compared 2 m s s.x, compare_compared 2 (s.operand (eaZp z)) s s.x,
    compare_compared 3 (s.operand (eaAbs w)) s s.x, compare_compared 2 m s s.y,
    compare_compared 2 (s.operand (eaZp z)) s s.y, compare_compared 3 (s.operand (eaAbs w)) s s.y,
    rfl, rfl, rfl, rfl, rfl, rfl⟩

/-- Settles O12: both modes are one `bitTest` of the operand (`bitTest_passed`). -/
theorem bitTestsMemory : Obligations.BitTestsMemory := by
  unfold Obligations.BitTestsMemory
  intro s z w
  exact ⟨bitTest_passed 2 (s.operand (eaZp z)) s, bitTest_passed 3 (s.operand (eaAbs w)) s, rfl, rfl⟩

/-- Settles O9: each of the eight modes is one `andA`, `orA` or `eorA` of its operand (`andA_passed`, `orA_passed`,
`eorA_passed`). -/
theorem logicCombinesAccumulator : Obligations.LogicCombinesAccumulator := by
  unfold Obligations.LogicCombinesAccumulator
  intro s m z w
  exact ⟨andA_passed 2 m s, andA_passed 2 (s.operand (eaZp z)) s, andA_passed 2 (s.operand (eaZpX s z)) s,
    andA_passed 3 (s.operand (eaAbs w)) s, andA_passed 3 (s.operand (eaAbsX s w)) s,
    andA_passed 3 (s.operand (eaAbsY s w)) s, andA_passed 2 (s.operand (eaIndX s z)) s,
    andA_passed 2 (s.operand (eaIndY s z)) s,
    orA_passed 2 m s, orA_passed 2 (s.operand (eaZp z)) s, orA_passed 2 (s.operand (eaZpX s z)) s,
    orA_passed 3 (s.operand (eaAbs w)) s, orA_passed 3 (s.operand (eaAbsX s w)) s,
    orA_passed 3 (s.operand (eaAbsY s w)) s, orA_passed 2 (s.operand (eaIndX s z)) s,
    orA_passed 2 (s.operand (eaIndY s z)) s,
    eorA_passed 2 m s, eorA_passed 2 (s.operand (eaZp z)) s, eorA_passed 2 (s.operand (eaZpX s z)) s,
    eorA_passed 3 (s.operand (eaAbs w)) s, eorA_passed 3 (s.operand (eaAbsX s w)) s,
    eorA_passed 3 (s.operand (eaAbsY s w)) s, eorA_passed 2 (s.operand (eaIndX s z)) s,
    eorA_passed 2 (s.operand (eaIndY s z)) s,
    rfl, rfl, rfl, rfl, rfl, rfl, rfl, rfl, rfl, rfl, rfl, rfl, rfl, rfl, rfl, rfl, rfl, rfl, rfl, rfl, rfl, rfl, rfl,
    rfl⟩

end Sys2Proof.Machine
end

section
/-! SUPPORT. Shifts, rotates and steps by one: the bit operations of the model as the statements' plain arithmetic, and
what each shared meaning answers on `A`, on an index register and on memory (43_shift_incdec.md R160 to R170). -/

namespace Sys2Proof.Machine

open Sys2Proof.Stmt

/-! The shifts and rotates of a byte (R160 to R163) -/

section

variable (c : Bool) (v : Byte)

theorem shiftLeft_one_toNat : (v <<< 1).toNat = v.toNat * 2 % 256 := by
  rw [BitVec.toNat_shiftLeft, Nat.shiftLeft_eq]

theorem ushiftRight_one_toNat : (v >>> 1).toNat = v.toNat / 2 := by
  rw [BitVec.toNat_ushiftRight, Nat.shiftRight_eq_div_pow]

theorem getLsbD_seven : v.getLsbD 7 = decide (128 ≤ v.toNat) := BitVec.msb_eq_decide v

theorem getLsbD_zero_eq : v.getLsbD 0 = decide (v.toNat % 2 = 1) := Nat.testBit_zero v.toNat

theorem aslByte_eq_asl : aslByte v = asl v := by
  have shifted : v <<< 1 = BitVec.ofNat 8 (v.toNat * 2) :=
    BitVec.eq_of_toNat_eq ((shiftLeft_one_toNat v).trans (BitVec.toNat_ofNat _ 8).symm)
  rw [aslByte, asl, shifted, getLsbD_seven]

theorem lsrByte_eq_lsr : lsrByte v = lsr v := by
  have shifted : v >>> 1 = BitVec.ofNat 8 (v.toNat / 2) := by
    rw [← ushiftRight_one_toNat, BitVec.ofNat_toNat, BitVec.setWidth_eq]
  rw [lsrByte, lsr, shifted, getLsbD_zero_eq]

/-- The old carry enters at bit 0, which the shift left clear: there the OR adds. -/
theorem rolByte_eq_rol : rolByte c v = rol c v := by
  have hc := c.toNat_le
  have rotated : v <<< 1 ||| BitVec.ofNat 8 c.toNat = BitVec.ofNat 8 (v.toNat * 2 + c.toNat) := by
    apply BitVec.eq_of_toNat_eq
    have disjoint := Nat.two_pow_add_eq_or_of_lt (i := 1) (b := c.toNat) (by omega) (v.toNat % 128)
    have shifted : v.toNat * 2 % 256 = 2 ^ 1 * (v.toNat % 128) := by omega
    rw [BitVec.toNat_or, shiftLeft_one_toNat, BitVec.toNat_ofNat, BitVec.toNat_ofNat, shifted,
      Nat.mod_eq_of_lt (show c.toNat < 2 ^ 8 by omega), ← disjoint]
    omega
  rw [rolByte, rol, rotated, getLsbD_seven]

/-- The old carry enters at bit 7, which the shift left clear: there the OR adds. -/
theorem rorByte_eq_ror : rorByte c v = ror c v := by
  have hc := c.toNat_le
  have hv := v.isLt
  have rotated : v >>> 1 ||| BitVec.ofNat 8 (c.toNat * 128) = BitVec.ofNat 8 (v.toNat / 2 + c.toNat * 128) := by
    apply BitVec.eq_of_toNat_eq
    have disjoint := Nat.two_pow_add_eq_or_of_lt (i := 7) (b := v.toNat / 2) (by omega) c.toNat
    rw [BitVec.toNat_or, ushiftRight_one_toNat, BitVec.toNat_ofNat, BitVec.toNat_ofNat,
      Nat.mod_eq_of_lt (show c.toNat * 128 < 2 ^ 8 by omega), Nat.or_comm, Nat.mul_comm c.toNat, ← disjoint]
    omega
  rw [rorByte, ror, rotated, getLsbD_zero_eq]

end

section

variable {f g : Byte → Byte × Bool} (n : Nat) (ea : Addr) (meaning : ∀ v, f v = g v) (s : State)

include meaning

/-- A shift of the accumulator completes with result and carry of `g`. -/
theorem shiftA_shifted : shiftA f s = .next (shiftedA (g s.a) s) := by
  rw [shiftA, meaning, done_advance, Flags.setNZC, Flags.setNZ_eq_nz]
  rfl

/-- A shift of memory completes, stores the result of `g` where it read its operand, and takes its carry (R170). -/
theorem shiftMem_stores :
    ∃ t, shiftMem n ea f s = .next t ∧
      Stores n ea (g (s.operand ea)).1 { nz (g (s.operand ea)).1 s.p with c := (g (s.operand ea)).2 } s t := by
  rw [shiftMem, meaning, done_advance, Flags.setNZC, Flags.setNZ_eq_nz]
  exact ⟨_, rfl, passed_memWrite_stores n ea _ _ s⟩

end

/-! Steps by one (R164 to R169) -/

theorem add_ofNat (v : Byte) (k : Nat) : v + BitVec.ofNat 8 k = BitVec.ofNat 8 (v.toNat + k) := by
  rw [BitVec.ofNat_add, BitVec.ofNat_toNat, BitVec.setWidth_eq]

/-- One less is 255 more modulo 256. -/
theorem sub_one_eq_ofNat (v : Byte) : v - 1 = BitVec.ofNat 8 (v.toNat + 255) := by
  rw [BitVec.sub_eq_add_neg]
  exact add_ofNat v 255

/-- A step of memory by `k` modulo 256 completes and stores the result where it read its operand (R170). -/
theorem stepMem_stores (n : Nat) (ea : Addr) (k : Nat) (s : State) :
    ∃ t, stepMem n ea (BitVec.ofNat 8 k) s = .next t ∧
      Stores n ea (BitVec.ofNat 8 ((s.operand ea).toNat + k)) (nz (BitVec.ofNat 8 ((s.operand ea).toNat + k)) s.p)
        s t := by
  rw [stepMem, add_ofNat, done_advance, Flags.setNZ_eq_nz]
  exact ⟨_, rfl, passed_memWrite_stores n ea _ _ s⟩

/-- `X` takes the stepped value as a load of one byte would give it. -/
theorem indexX_passed (r : Byte) (s : State) : indexX r s = .next { passed 1 s with x := r, p := nz r s.p } :=
  loadX_passed 1 r s

/-- `Y` takes the stepped value as a load of one byte would give it. -/
theorem indexY_passed (r : Byte) (s : State) : indexY r s = .next { passed 1 s with y := r, p := nz r s.p } :=
  loadY_passed 1 r s

/-! The statements -/

/-- Settles O13: each form is one `shiftA` or `shiftMem` (`shiftA_shifted`, `shiftMem_stores`) of a shift that is the
plain one (`aslByte_eq_asl`, `lsrByte_eq_lsr`). -/
theorem shiftsMoveBitIntoCarry : Obligations.ShiftsMoveBitIntoCarry := by
  unfold Obligations.ShiftsMoveBitIntoCarry
  intro s z w
  have left n ea := shiftMem_stores n ea aslByte_eq_asl s
  have right n ea := shiftMem_stores n ea lsrByte_eq_lsr s
  exact ⟨shiftA_shifted aslByte_eq_asl s, left 2 (eaZp z), left 2 (eaZpX s z), left 3 (eaAbs w), left 3 (eaAbsX s w),
    shiftA_shifted lsrByte_eq_lsr s, right 2 (eaZp z), right 2 (eaZpX s z), right 3 (eaAbs w), right 3 (eaAbsX s w),
    rfl, rfl, rfl, rfl, rfl, rfl, rfl, rfl, rfl, rfl⟩

/-- Settles O14: each form is one `shiftA` or `shiftMem` (`shiftA_shifted`, `shiftMem_stores`) of a rotation through the
carry of `s` that is the plain one (`rolByte_eq_rol`, `rorByte_eq_ror`). -/
theorem rotatesGoThroughCarry : Obligations.RotatesGoThroughCarry := by
  unfold Obligations.RotatesGoThroughCarry
  intro s z w
  have left n ea := shiftMem_stores n ea (rolByte_eq_rol s.p.c) s
  have right n ea := shiftMem_stores n ea (rorByte_eq_ror s.p.c) s
  exact ⟨shiftA_shifted (rolByte_eq_rol s.p.c) s, left 2 (eaZp z), left 2 (eaZpX s z), left 3 (eaAbs w),
    left 3 (eaAbsX s w),
    shiftA_shifted (rorByte_eq_ror s.p.c) s, right 2 (eaZp z), right 2 (eaZpX s z), right 3 (eaAbs w),
    right 3 (eaAbsX s w),
    rfl, rfl, rfl, rfl, rfl, rfl, rfl, rfl, rfl, rfl⟩

/-- Settles O15: each form is one `stepMem` at its effective address, by 1 or by the 255 that −1 is modulo 256
(`stepMem_stores`). -/
theorem incDecStepMemory : Obligations.IncDecStepMemory := by
  unfold Obligations.IncDecStepMemory
  intro s z w
  exact ⟨stepMem_stores 2 (eaZp z) 1 s, stepMem_stores 2 (eaZpX s z) 1 s, stepMem_stores 3 (eaAbs w) 1 s,
    stepMem_stores 3 (eaAbsX s w) 1 s,
    stepMem_stores 2 (eaZp z) 255 s, stepMem_stores 2 (eaZpX s z) 255 s, stepMem_stores 3 (eaAbs w) 255 s,
    stepMem_stores 3 (eaAbsX s w) 255 s,
    rfl, rfl, rfl, rfl, rfl, rfl, rfl, rfl⟩

/-- Settles O16: each step is one `indexX` or `indexY` (`indexX_passed`, `indexY_passed`) of the register one more
(`add_ofNat`) or one less (`sub_one_eq_ofNat`). -/
theorem indexRegistersStep : Obligations.IndexRegistersStep := by
  unfold Obligations.IndexRegistersStep
  intro s
  refine ⟨?inx, ?iny, ?dex, ?dey, rfl, rfl, rfl, rfl⟩
  case inx => exact add_ofNat s.x 1 ▸ indexX_passed (s.x + 1) s
  case iny => exact add_ofNat s.y 1 ▸ indexY_passed (s.y + 1) s
  case dex => exact sub_one_eq_ofNat s.x ▸ indexX_passed (s.x - 1) s
  case dey => exact sub_one_eq_ofNat s.y ▸ indexY_passed (s.y - 1) s

end Sys2Proof.Machine
end

section
/-! SUPPORT. Branches, jumps and subroutines: the program counter in the statements' plain arithmetic, and what several
pushes leave on the stack (10_state.md R22, R25; 20_memory.md R65; 44_branch_jump.md R180 to R192). -/

namespace Sys2Proof.Machine

open Sys2Proof.Stmt

/-! Setting the program counter -/

theorem joinBytes_eq_ofNat (hi lo : Byte) : joinBytes hi lo = BitVec.ofNat 16 (hi.toNat * 256 + lo.toNat) := by
  rw [← joinBytes_toNat, BitVec.ofNat_toNat, BitVec.setWidth_eq]

theorem done_withPc (target : Addr) (s : State) : done (s.withPc target) = .next (jumped target s) := rfl

/-- A branch completes; not taken, it is an instruction of two bytes that changes nothing else (R180). -/
theorem branch_branched (cond : Bool) (r : Byte) (s : State) : branch cond r s = .next (branched cond r s) := by
  cases cond with
  | true => exact congrArg (fun target => done (s.withPc target)) (branchTarget_eq_ofInt s r)
  | false => exact done_advance 2 s

/-- Only the low byte of the address of a pointer is stepped for its high byte (R113). -/
theorem indirectTarget_eq_ofNat (s : State) (w : Addr) :
    indirectTarget s w = BitVec.ofNat 16
      ((s.memRead .pointerHigh (BitVec.ofNat 16 (w.toNat / 256 * 256 + (w.toNat + 1) % 256))).toNat * 256 +
        (s.memRead .pointerLow w).toNat) := by
  have stepped : (loByte w + 1).toNat = (w.toNat + 1) % 256 := by
    rw [BitVec.toNat_add, loByte_toNat]
    exact Nat.mod_add_mod w.toNat 256 1
  have second : joinBytes (hiByte w) (loByte w + 1) =
      BitVec.ofNat 16 (w.toNat / 256 * 256 + (w.toNat + 1) % 256) := by
    rw [joinBytes_eq_ofNat, hiByte_toNat, stepped]
  rw [indirectTarget, second, joinBytes_eq_ofNat]

/-- Settles O17: each branch is the common rule for its flag (`branch_branched`). -/
theorem branchesTestOneFlag : Obligations.BranchesTestOneFlag := by
  unfold Obligations.BranchesTestOneFlag
  intro s r
  have rule cond := branch_branched cond r s
  exact ⟨rule (!s.p.c), rule s.p.c, rule s.p.z, rule s.p.n, rule (!s.p.z), rule (!s.p.n), rule (!s.p.v), rule s.p.v,
    rfl, rfl, rfl, rfl, rfl, rfl, rfl, rfl⟩

/-- Settles O18: both forms set `PC` alone, the indirect one to its pointer's bytes (`indirectTarget_eq_ofNat`). -/
theorem jmpSetsProgramCounter : Obligations.JmpSetsProgramCounter := by
  unfold Obligations.JmpSetsProgramCounter
  intro s w
  exact ⟨done_withPc w s, indirectTarget_eq_ofNat s w ▸ done_withPc (indirectTarget s w) s, rfl, rfl⟩

/-! Several stores in one step -/

section

variable {s t : State} {stored : List (Addr × Byte)}

theorem State.loc_of_platform_eq (same : t.platform = s.platform) (a : Addr) : t.loc a = s.loc a := by
  rw [loc, loc, same]

theorem State.kind_of_platform_eq (same : t.platform = s.platform) (a : Addr) : t.kind a = s.kind a := by
  rw [kind, kind, same, loc_of_platform_eq same]

/-- A write after other stores, to a location that none of them reached, is one store more. -/
theorem storesOnly_memWrite (h : StoresOnly s t stored) (same : t.platform = s.platform) (a : Addr) (v : Byte)
    (apart : ∀ e ∈ stored, s.loc a ≠ s.loc e.1) : StoresOnly s (t.memWrite a v) (stored ++ [(a, v)]) := by
  obtain ⟨others, ram, notRam⟩ := h
  have written (b : Addr) :
      (t.memWrite a v).byteAt b = if s.kind a = .ram ∧ s.loc b = s.loc a then v else t.byteAt b := by
    rw [State.memWrite_byteAt, State.kind_of_platform_eq same, State.loc_of_platform_eq same,
      State.loc_of_platform_eq same]
  have before (e : Addr × Byte) (he : e ∈ stored) : (t.memWrite a v).byteAt e.1 = t.byteAt e.1 := by
    rw [written, if_neg fun ⟨_, shared⟩ => apart e he shared.symm]
  simp only [StoresOnly, List.forall_mem_append, List.forall_mem_singleton]
  refine ⟨fun b ⟨hb, hba⟩ => ?_, ⟨fun e he hk => ?_, fun hk => ?_⟩, ⟨fun e he hk => ?_, fun hk => ?_⟩⟩
  · rw [written, if_neg fun ⟨_, shared⟩ => hba shared, others b hb]
  · rw [before e he, ram e he hk]
  · rw [written, if_pos ⟨hk, rfl⟩]
  · rw [before e he, notRam e he hk]
  · rw [written, if_neg fun ⟨hram, _⟩ => hk hram, others a apart]

/-- A push is a write to the address in page one that `S` designates (R65). -/
theorem storesOnly_push8 (h : StoresOnly s t stored) (same : t.platform = s.platform) (v : Byte)
    (apart : ∀ e ∈ stored, s.loc (page1 t.sp) ≠ s.loc e.1) :
    StoresOnly s (t.push8 v) (stored ++ [(page1 t.sp, v)]) := by
  rw [State.push8, stackAddr_eq_page1]
  exact storesOnly_memWrite h same (page1 t.sp) v apart

theorem push8_storesOnly (s : State) (v : Byte) : StoresOnly s (s.push8 v) [(page1 s.sp, v)] := by
  rw [State.push8, stackAddr_eq_page1]
  exact memWrite_storesOnly s (page1 s.sp) v

/-- What a step stored in RAM is what the next step reads there. -/
theorem memRead_of_storesOnly (h : StoresOnly s t stored) (same : t.platform = s.platform) (hr : t.replaced = [])
    (k : Slot) {a : Addr} {v : Byte} (entry : (a, v) ∈ stored) (hk : s.kind a = .ram) : t.memRead k a = v := by
  obtain ⟨-, ram, -⟩ := h
  rw [State.memRead_ram t k a ((State.kind_of_platform_eq same a).trans hk) hr]
  exact ram _ entry hk

end

/-! Pushing an address -/

/-- The two bytes of an address pushed, high byte first (R66). -/
def State.pushAddr (s : State) (a : Addr) : State := (s.push8 (hiByte a)).push8 (loByte a)

theorem State.push8_eq (s : State) (v : Byte) : s.push8 v = { s with sp := s.sp - 1, mem := (s.push8 v).mem } := by
  rw [push8, memWrite_eq]
  rfl

theorem State.pushAddr_eq (s : State) (a : Addr) :
    s.pushAddr a = { s with sp := s.sp - 2, mem := (s.pushAddr a).mem } := by
  have sp : s.sp - 1 - 1 = s.sp - 2 := by bv_omega
  rw [pushAddr, push8_eq (s.push8 _), push8_sp, sp, push8_eq s]

/-- Page one is seen whole on every device (20_memory.md R51). -/
theorem State.loc_page1 (s : State) (sp : Byte) : s.loc (page1 sp) = 256 + sp.toNat := by
  rw [← stackAddr_eq_page1, loc_stackAddr]

theorem pushAddr_storesOnly (s : State) (a : Addr) :
    StoresOnly s (s.pushAddr a) [(page1 s.sp, hiByte a), (page1 (s.sp - 1), loByte a)] := by
  have first : StoresOnly s (s.push8 (hiByte a)) [(page1 s.sp, hiByte a)] := push8_storesOnly s (hiByte a)
  have apart : ∀ e ∈ [(page1 s.sp, hiByte a)], s.loc (page1 (s.push8 (hiByte a)).sp) ≠ s.loc e.1 := by
    simp only [List.forall_mem_singleton, State.loc_page1, State.push8_sp]
    bv_omega
  rw [← s.push8_sp (hiByte a)]
  exact storesOnly_push8 first (s.push8_platform _) (loByte a) apart

/-! JSR -/

theorem execJsr_of_apart {s : State} (w : Addr) (apart : jsrOverwritesOperand s = false) :
    execJsr w s = .next (jumped w (s.pushAddr (s.pc + 2))) := by
  rw [execJsr, apart]
  rfl

theorem execJsr_of_overlap {s : State} (w : Addr) (overlap : jsrOverwritesOperand s = true) :
    execJsr w s = .refused (.pushOverOperand s.pc) := if_pos overlap

/-- A JSR that completes has pushed its return address and set `PC`, and changes nothing else (R191). -/
theorem execJsr_next {s t : State} {w : Addr} (h : execJsr w s = .next t) :
    t = { jumped w s with sp := s.sp - 2, mem := t.mem } ∧
      StoresOnly s t [(page1 s.sp, hiByte (s.pc + 2)), (page1 (s.sp - 1), loByte (s.pc + 2))] := by
  cases hc : jsrOverwritesOperand s with
  | true =>
    rw [execJsr_of_overlap w hc] at h
    cases h
  | false =>
    rw [execJsr_of_apart w hc] at h
    cases h
    exact ⟨by rw [State.pushAddr_eq]; rfl, pushAddr_storesOnly s (s.pc + 2)⟩

/-- Settles O19: the model's test is the statement's (`jsrOverwritesOperand_iff`), and where it passes
`execJsr_next` says what is left. -/
theorem jsrPushesReturnAddress : Obligations.JsrPushesReturnAddress := by
  unfold Obligations.JsrPushesReturnAddress
  intro s w
  refine ⟨fun apart => ?_, fun overlap => ?_, rfl⟩
  · have passes : jsrOverwritesOperand s = false := by
      rw [← Bool.not_eq_true, jsrOverwritesOperand_iff]
      rintro ⟨k, hk, sp, hsp, shared⟩
      exact apart k hk sp hsp shared
    have completes := execJsr_of_apart w passes
    exact ⟨_, completes, execJsr_next completes⟩
  · exact execJsr_of_overlap w ((jsrOverwritesOperand_iff s).2 overlap)

/-! RTS -/

/-- RTS completes: `PC` is one more than the two bytes above `S`, and `S` two more (R192). -/
theorem execRts_jumped (s : State) :
    execRts s = .next
      { jumped (joinBytes (s.memRead .pull2 (page1 (s.sp + 2))) (s.memRead .pull1 (page1 (s.sp + 1))) + 1) s with
        sp := s.sp + 2 } := by
  rw [← stackAddr_eq_page1, ← stackAddr_eq_page1]
  rfl

/-- Settles O20: the joined bytes and the 1 are one sum modulo 2^16 (`execRts_jumped`, `joinBytes_eq_ofNat`). -/
theorem rtsPullsReturnAddress : Obligations.RtsPullsReturnAddress := by
  unfold Obligations.RtsPullsReturnAddress
  intro s
  rw [BitVec.ofNat_add _ 1, ← joinBytes_eq_ofNat]
  exact ⟨execRts_jumped s, rfl⟩

/-- RTS in a state that has the address `ret` on top of its stack in RAM goes to the address after it. -/
theorem execRts_of_pushed {s t : State} {ret : Addr} (hstack : StackRam 2 s)
    (pushed : StoresOnly s t [(page1 s.sp, hiByte ret), (page1 (s.sp - 1), loByte ret)])
    (same : t.platform = s.platform) (hr : t.replaced = s.replaced) (hsp : t.sp = s.sp - 2) :
    execRts t = .next { jumped (ret + 1) t with sp := s.sp } := by
  obtain ⟨replaced, ram⟩ := hstack
  have top : t.sp + 2 = s.sp := by rw [hsp, BitVec.sub_add_cancel]
  have below : t.sp + 1 = s.sp - 1 := by rw [hsp]; bv_omega
  have hi : t.memRead .pull2 (page1 s.sp) = hiByte ret :=
    memRead_of_storesOnly pushed same (hr.trans replaced) .pull2 (by simp) (by simpa using ram 0 (by decide))
  have lo : t.memRead .pull1 (page1 (s.sp - 1)) = loByte ret :=
    memRead_of_storesOnly pushed same (hr.trans replaced) .pull1 (by simp) (ram 1 (by decide))
  rw [execRts_jumped, top, below, hi, lo, joinBytes_hiByte_loByte]

/-- Settles O21: a JSR that completes leaves its return address on the stack and the other registers alone
(`execJsr_next`), and RTS goes to the address after it (`execRts_of_pushed`). -/
theorem jsrThenRtsReturns : Obligations.JsrThenRtsReturns := by
  unfold Obligations.JsrThenRtsReturns
  intro s t w hstack h
  obtain ⟨frame, pushed⟩ := execJsr_next h
  have kept {α : Type} (field : State → α) := congrArg field frame
  have resumes : exec .rts t = .next { jumped (s.pc + 2 + 1) t with sp := s.sp } :=
    execRts_of_pushed hstack pushed (kept State.platform) (kept State.replaced) (kept State.sp)
  exact ⟨_, resumes, BitVec.add_assoc s.pc 2 1, rfl, kept State.a, kept State.x, kept State.y, kept State.p⟩

end Sys2Proof.Machine
end

section
/-! SUPPORT. Pushes, pulls, the flag instructions, BRK and RTI: the next states of the shared meanings in the
statements' plain arithmetic, and what taking an interrupt leaves (45_stack_flag_system.md R200 to R213;
60_exceptions.md R230, R239). -/

namespace Sys2Proof.Machine

open Sys2Proof.Stmt

/-! Pushes (R200, R201) -/

/-- A byte pushed by an instruction of one byte that does nothing else. -/
theorem push_completes (v : Byte) (s : State) :
    ∃ t, done ((s.push8 v).advance 1) = .next t ∧ t = { passed 1 s with sp := s.sp - 1, mem := t.mem } ∧
      StoresOnly s t [(page1 s.sp, v)] := by
  refine ⟨_, done_advance 1 (s.push8 v), ?_, push8_storesOnly s v⟩
  rw [State.push8_eq]
  rfl

/-- Settles O22: PHA is one push of `A` (`push_completes`). -/
theorem phaPushesAccumulator : Obligations.PhaPushesAccumulator := by
  unfold Obligations.PhaPushesAccumulator
  exact fun s => ⟨push_completes s.a s, rfl⟩

/-- Settles O23: PHP is one push (`push_completes`) of the image of the flags (`image_eq_pByte`). -/
theorem phpPushesStatus : Obligations.PhpPushesStatus := by
  unfold Obligations.PhpPushesStatus
  exact fun s => ⟨image_eq_pByte s.p true ▸ push_completes (s.p.image true) s, rfl⟩

/-! Pulls (R202, R203) -/

/-- The flags a byte loads are its bits, read as quotients (10_state.md R36). -/
theorem flagsOf_eq_pulledFlags (v : Byte) : flagsOf v = pulledFlags v := by
  have bit (k : Nat) : v.getLsbD k = decide (v.toNat / 2 ^ k % 2 = 1) := Nat.testBit_eq_decide_div_mod_eq
  simp only [flagsOf, bit]
  simp [pulledFlags]

/-- The `n`-th pull reads `n` above `S` in page one (20_memory.md R65). -/
theorem State.pulled_eq (s : State) (k : Slot) (n : Nat) :
    s.pulled k n = s.memRead k (page1 (s.sp + BitVec.ofNat 8 n)) := by
  rw [pulled, stackAddr_eq_page1]

/-- An instruction of `n` bytes that leaves the mark of a changed mask is passed but for the mark. -/
theorem maskChanged_advance (n : Nat) (before s : State) :
    maskChanged before (s.advance n) = .next { passed n s with boundary := .afterMaskChange before.p.i } := by
  have passes : (s.advance n).finish .ordinary = passed n s := Host.Outcome.next.inj (done_advance n s)
  rw [← passes]
  rfl

/-- Settles O24: PLA is a load of the pulled byte (`loadA_passed`), PLP loads the flags from it
(`flagsOf_eq_pulledFlags`). -/
theorem pullsLoadFromStack : Obligations.PullsLoadFromStack := by
  unfold Obligations.PullsLoadFromStack
  intro s
  have pulled : s.pulled .pull1 1 = s.memRead .pull1 (page1 (s.sp + 1)) := s.pulled_eq .pull1 1
  rw [← pulled, ← flagsOf_eq_pulledFlags]
  exact ⟨loadA_passed 1 (s.pulled .pull1 1) (s.popped 1), maskChanged_advance 1 s _, rfl, rfl⟩

/-! Instructions that write one flag or none (R204 to R211) -/

/-- Settles O26: each instruction advances past its one byte with one flag written, CLI and SEI with the mark of a
changed mask (`done_advance`, `maskChanged_advance`). -/
theorem flagInstructionsWriteOneFlag : Obligations.FlagInstructionsWriteOneFlag := by
  unfold Obligations.FlagInstructionsWriteOneFlag
  intro s
  have writes (p : Flags) : done ((s.withP p).advance 1) = .next { passed 1 s with p := p } :=
    done_advance 1 (s.withP p)
  have masks (p : Flags) :
      maskChanged s ((s.withP p).advance 1) =
        .next { passed 1 s with p := p, boundary := .afterMaskChange s.p.i } :=
    maskChanged_advance 1 s (s.withP p)
  exact ⟨writes _, writes _, writes _, writes _, writes _, masks _, masks _, rfl, rfl, rfl, rfl, rfl, rfl, rfl⟩

/-- Settles O27: NOP is its advance alone (`done_advance`). -/
theorem nopAdvancesOnly : Obligations.NopAdvancesOnly := by
  unfold Obligations.NopAdvancesOnly
  exact fun s => ⟨done_advance 1 s, rfl⟩

/-! Taking an interrupt (60_exceptions.md R230, R239) -/

/-- The frame is the return address and, below it, the image of the flags (R66). -/
theorem pushFrame_storesOnly (s : State) (b : Bool) :
    StoresOnly s (s.pushFrame b)
      [(page1 s.sp, hiByte s.pc), (page1 (s.sp - 1), loByte s.pc), (page1 (s.sp - 2), pByte s.p b)] := by
  have sp : (s.pushAddr s.pc).sp = s.sp - 2 := by rw [State.pushAddr_eq]
  have same : (s.pushAddr s.pc).platform = s.platform := by rw [State.pushAddr_eq]
  have apart : ∀ e ∈ [(page1 s.sp, hiByte s.pc), (page1 (s.sp - 1), loByte s.pc)],
      s.loc (page1 (s.pushAddr s.pc).sp) ≠ s.loc e.1 := by
    rw [List.forall_mem_cons, List.forall_mem_singleton]
    simp only [State.loc_page1, sp]
    bv_omega
  have frame := storesOnly_push8 (pushAddr_storesOnly s s.pc) same (s.p.image b) apart
  rw [sp, image_eq_pByte] at frame
  rw [State.pushFrame, image_eq_pByte]
  exact frame

/-- Both bytes of a vector lie in the last six of the address space, where no push reaches them (20_memory.md R54). -/
abbrev IsVector (v : Addr) : Prop := 0xFFFA ≤ v.toNat ∧ 0xFFFA ≤ (v + 1).toNat

theorem State.pushFrame_vectorAt (s : State) (b : Bool) (p : Flags) {v : Addr} (hv : IsVector v) :
    ((s.pushFrame b).withP p).vectorAt v = s.vectorAt v := by
  obtain ⟨low, high⟩ := hv
  rw [vectorAt, withP_memRead, withP_memRead, pushFrame_memRead s b _ _ (s.loc_vector_outside low),
    pushFrame_memRead s b _ _ (s.loc_vector_outside high), vectorAt]

/-- The frame pushed, `I` set and `PC` loaded from a vector are an entry, whatever becomes of the NMI pin. -/
theorem enters_of_pushFrame (b : Bool) (s : State) {vector : Addr} (hv : IsVector vector) (line pending : Bool)
    (during : During) :
    Enters vector s.pc b s
      { s.pushFrame b with
        p := { s.p with i := true }
        pc := ((s.pushFrame b).withP { s.p with i := true }).vectorAt vector
        nmiLine := line, nmiPending := pending, during := during } :=
  ⟨s.pushFrame_a b, s.pushFrame_x b, s.pushFrame_y b, s.pushFrame_sp b, rfl, s.pushFrame_vectorAt b _ hv,
    pushFrame_storesOnly s b⟩

section

variable {s : State} {vector : Addr}

theorem interruptEntry_enters (b : Bool) (hv : IsVector vector) (straight : s.nmiRedirects vector = false) :
    Enters vector s.pc b s (interruptEntry vector b s) ∧ NmiKept s (interruptEntry vector b s) := by
  rw [interruptEntry_eq vector b s straight]
  exact ⟨enters_of_pushFrame b s hv _ _ _, s.pushFrame_nmiLine b, s.pushFrame_nmiPending b, s.pushFrame_during b⟩

/-- Redirected, the sequence enters at the NMI vector and has served the edge that it took (R239, log 13). -/
theorem interruptEntry_enters_nmi (b : Bool) (redirected : s.nmiRedirects vector = true) :
    Enters nmiVector s.pc b s (interruptEntry vector b s) ∧
      (interruptEntry vector b s).during = { s.during with nmiFalls := false } ∧
      (interruptEntry vector b s).nmiLine = false ∧ (interruptEntry vector b s).nmiPending = false := by
  rw [interruptEntry_redirected vector b s redirected]
  exact ⟨enters_of_pushFrame b s (by decide) _ _ _, rfl, rfl, rfl⟩

theorem nmiRedirects_pin (redirected : s.nmiRedirects vector = true) :
    hasNmi s.platform.dev = true ∧ s.nmiLine = true := by
  simp only [State.nmiRedirects, Bool.and_eq_true] at redirected
  obtain ⟨⟨⟨⟨-, present⟩, line⟩, -⟩, -⟩ := redirected
  exact ⟨present, line⟩

end

/-- Settles O28: BRK is the taking of an interrupt at the address after its two bytes, which an NMI edge inside may
redirect (`interruptEntry_enters`, `interruptEntry_enters_nmi`). -/
theorem brkEntersHandler : Obligations.BrkEntersHandler := by
  unfold Obligations.BrkEntersHandler
  have hv : IsVector irqVector := by decide
  refine ⟨fun s noEdge => ?_, fun s _ => ?_, rfl⟩
  · have straight : (s.advance 2).nmiRedirects irqVector = false := by simp [State.nmiRedirects, noEdge]
    obtain ⟨cycles, draws⟩ := interruptEntry_counters irqVector true (s.advance 2)
    obtain ⟨enters, line, pending, edges⟩ := interruptEntry_enters true hv straight
    exact ⟨_, rfl, enters, interruptEntry_samePins irqVector true (s.advance 2), line, pending, edges, cycles,
      congrArg (· + 1) draws, rfl⟩
  · obtain ⟨cycles, draws⟩ := interruptEntry_counters irqVector true (s.advance 2)
    refine ⟨_, rfl, interruptEntry_samePins irqVector true (s.advance 2), cycles, congrArg (· + 1) draws, rfl, ?_⟩
    cases redirects : (s.advance 2).nmiRedirects irqVector with
    | false =>
      obtain ⟨enters, line, pending, edges⟩ := interruptEntry_enters true hv redirects
      exact .inl ⟨enters, edges, line, pending⟩
    | true =>
      obtain ⟨present, line⟩ := nmiRedirects_pin redirects
      exact .inr ⟨present, line, interruptEntry_enters_nmi true redirects⟩

/-! Returning from an interrupt (R213) -/

/-- Settles O29: RTI is the return from an interrupt, its pulls read in the statement's arithmetic
(`flagsOf_eq_pulledFlags`, `joinBytes_eq_ofNat`). -/
theorem rtiPullsStatusThenProgramCounter : Obligations.RtiPullsStatusThenProgramCounter := by
  unfold Obligations.RtiPullsStatusThenProgramCounter
  intro s
  rw [← joinBytes_eq_ofNat, ← flagsOf_eq_pulledFlags, ← stackAddr_eq_page1, ← stackAddr_eq_page1,
    ← stackAddr_eq_page1]
  exact ⟨congrArg done (returnFromInterrupt_eq s), rfl⟩

end Sys2Proof.Machine
end

section
/-! SUPPORT. What a boundary chooses, and the IRQ, NMI and reset sequences as whole steps (60_exceptions.md R221 to
R233; 70_reset_and_hazards.md R260). -/

namespace Sys2Proof.Machine

open Sys2Proof.Stmt

section

variable {s t : State}

/-! The requests (R226, R232, R239) -/

/-- Anywhere but right after a sequence a pending NMI is taken (R232). -/
theorem takesNmi_of_pending (pending : s.nmiPending = true) (settled : s.boundary ≠ .afterSequence) :
    takesNmi s = true := by
  rw [takesNmi, pending]
  cases hb : s.boundary with
  | afterSequence => exact absurd hb settled
  | ordinary | afterMaskChange => rfl

theorem takesNmi_of_none_pending (noRequest : s.nmiPending = false) : takesNmi s = false := by
  rw [takesNmi, noRequest, Bool.false_and]

theorem pending_of_takesNmi (h : takesNmi s = true) : s.nmiPending = true := by
  obtain ⟨pending, -⟩ := Bool.and_eq_true_iff.1 h
  exact pending

/-- A high level leaves nothing to take (R223, R229). -/
theorem takesIrq_of_high (high : s.irqLine = false) : takesIrq s = false := by
  rw [takesIrq, high, Bool.false_and]

/-- Where the `I` before the last step and the `I` now agree, that `I` decides (R226). -/
theorem takesIrq_of_mask_settled (low : s.irqLine = true)
    (agree : ∀ old, s.boundary = .afterMaskChange old → old = s.p.i) : takesIrq s = !s.p.i := by
  rw [takesIrq, low, Bool.true_and]
  cases hb : s.boundary with
  | afterMaskChange old => exact if_pos (agree old hb)
  | ordinary | afterSequence => rfl

theorem irq_of_takesIrq (h : takesIrq s = true) :
    s.irqLine = true ∧ (s.p.i = false ∨ ∃ old, s.boundary = .afterMaskChange old) := by
  obtain ⟨low, -⟩ := Bool.and_eq_true_iff.1 h
  refine ⟨low, or_iff_not_imp_right.2 fun unchanged => ?_⟩
  rw [takesIrq_of_mask_settled low fun old hb => absurd ⟨old, hb⟩ unchanged] at h
  simpa using h

/-! The choice (R225, R233) -/

theorem chooseAct_reset (res : s.res = true) (due : s.resetDue = true) : chooseAct s = .resetSequence := by
  rw [chooseAct_eq, res, due]
  rfl

/-- A running CPU takes an NMI before an IRQ and an IRQ before the instruction. -/
theorem chooseAct_running (res : s.res = true) (notDue : s.resetDue = false) (rdy : s.rdy = true) :
    chooseAct s =
      if takesNmi s then .nmiSequence else if takesIrq s then .irqSequence else .instruction := by
  rw [chooseAct_eq, res, notDue, rdy]
  rfl

/-- A CPU that neither idles nor resets is running. -/
theorem running_of_chooseAct (notIdle : chooseAct s ≠ .idle) (notReset : chooseAct s ≠ .resetSequence) :
    s.res = true ∧ s.resetDue = false ∧ s.rdy = true := by
  cases res : s.res with
  | false => exact absurd (chooseAct_held (.inl res)) notIdle
  | true =>
    cases due : s.resetDue with
    | true => exact absurd (chooseAct_reset res due) notReset
    | false =>
      cases rdy : s.rdy with
      | false => exact absurd (chooseAct_held (.inr ⟨rdy, due⟩)) notIdle
      | true => exact ⟨rfl, rfl, rfl⟩

theorem chooseAct_nmiSequence (h : chooseAct s = .nmiSequence) :
    s.res = true ∧ s.rdy = true ∧ takesNmi s = true := by
  obtain ⟨res, notDue, rdy⟩ := running_of_chooseAct (s := s) (by simp [h]) (by simp [h])
  rw [chooseAct_running res notDue rdy] at h
  split_ifs at h with nmi
  exact ⟨res, rdy, nmi⟩

theorem chooseAct_irqSequence (h : chooseAct s = .irqSequence) :
    s.res = true ∧ s.rdy = true ∧ takesIrq s = true := by
  obtain ⟨res, notDue, rdy⟩ := running_of_chooseAct (s := s) (by simp [h]) (by simp [h])
  rw [chooseAct_running res notDue rdy] at h
  split_ifs at h with nmi irq
  exact ⟨res, rdy, irq⟩

end

/-- Settles O33: a held CPU idles (`chooseAct_held`), a due reset comes next (`chooseAct_reset`), and a running CPU goes
by its requests (`chooseAct_running`), an IRQ's by the mask (`takesIrq_of_mask_settled`). -/
theorem interruptRecognitionFollowsMask : Obligations.InterruptRecognitionFollowsMask := by
  unfold Obligations.InterruptRecognitionFollowsMask
  intro s
  refine ⟨fun res => chooseAct_held (.inl res), chooseAct_reset,
    fun _ notDue rdy => chooseAct_held (.inr ⟨rdy, notDue⟩), fun res notDue rdy => ?_⟩
  rw [chooseAct_running res notDue rdy]
  refine ⟨fun pending settled => ?nmi, fun noRequest high => ?quiet, fun noRequest low agree => ?masked,
    fun noRequest => ?noNmi⟩
  case nmi => rw [takesNmi_of_pending pending settled, if_pos rfl]
  case quiet => simp [takesNmi_of_none_pending noRequest, takesIrq_of_high high]
  case masked =>
    rw [takesNmi_of_none_pending noRequest, takesIrq_of_mask_settled low agree]
    cases s.p.i <;> rfl
  case noNmi =>
    rw [takesNmi_of_none_pending noRequest, if_neg Bool.false_ne_true]
    split_ifs with irq
    · exact .inr ⟨(irq_of_takesIrq irq).1, rfl⟩
    · exact .inl rfl

/-! The IRQ and NMI sequences (R230 to R232) -/

section

variable {s t : State}

/-- With nothing inside it a step ends as its act does. -/
theorem step_of_act (alone : Alone s) (h : act s = .next t) (noEdge : t.during = During.none)
    (noWrite : t.replaced = []) : step s = .next t := by
  obtain ⟨hs, hd, hr⟩ := alone
  rw [step_alone s hs hd hr, h]
  exact congrArg Host.Outcome.next (settle_none _ s t hd noEdge noWrite)

/-- A sequence with nothing inside its step enters at its vector and moves no pin, with the NMI request as it stood
when the sequence began. -/
theorem step_of_sequence {vector : Addr} (hv : IsVector vector) (pending : Bool) (alone : Alone s)
    (taken : act s = .next
      { (interruptEntry vector false { s with nmiPending := pending }).finish .afterSequence with
        cycles := s.cycles + interruptCycles }) :
    ∃ t, step s = .next t ∧ Enters vector s.pc false s t ∧ SamePins s t ∧ t.nmiLine = s.nmiLine ∧
      t.nmiPending = pending ∧ t.during = During.none ∧ t.cycles = s.cycles + 7 := by
  have ⟨_, noEdge, noWrite⟩ := alone
  have straight : State.nmiRedirects { s with nmiPending := pending } vector = false :=
    State.nmiRedirects_none _ vector noEdge
  obtain ⟨enters, line, request, edges⟩ := interruptEntry_enters false hv straight
  have pins := interruptEntry_samePins vector false { s with nmiPending := pending }
  have ⟨_, _, _, _, _, _, _, writes⟩ := pins
  exact ⟨_, step_of_act alone taken (edges.trans noEdge) (writes.trans noWrite), enters, pins, line, request,
    edges.trans noEdge, rfl⟩

theorem act_irqSequence (chosen : chooseAct s = .irqSequence) : act s = .next (irqSequence s) := by
  rw [act, chosen]

theorem act_nmiSequence (chosen : chooseAct s = .nmiSequence) : act s = .next (nmiSequence s) := by
  rw [act, chosen]

end

/-- Settles O30: the boundary chooses the IRQ (`chooseAct_running`), and the step is its sequence
(`step_of_sequence`). -/
theorem irqSequenceStacksAndMasks : Obligations.IrqSequenceStacksAndMasks := by
  unfold Obligations.IrqSequenceStacksAndMasks
  refine ⟨fun s boundary request => ?_, fun s chosen => ?_⟩
  · obtain ⟨alone, res, rdy, notDue⟩ := boundary
    refine step_of_sequence (vector := irqVector) (by decide) s.nmiPending alone (act_irqSequence ?_)
    refine request.elim (fun ⟨low, quiet, clear, unchanged⟩ => ?_) id
    have taken : takesIrq s = true := by
      rw [takesIrq_of_mask_settled low fun old hb => (unchanged old hb).trans clear.symm, clear]
      rfl
    rw [chooseAct_running res notDue rdy, takesNmi_of_none_pending quiet, taken]
    rfl
  · obtain ⟨res, rdy, taken⟩ := chooseAct_irqSequence chosen
    obtain ⟨low, mask⟩ := irq_of_takesIrq taken
    exact ⟨low, rdy, res, mask⟩

/-- Settles O31: the boundary chooses the NMI before anything else (`takesNmi_of_pending`), and the step is its sequence
(`step_of_sequence`), which begins with the request cleared. -/
theorem nmiSequenceIgnoresMask : Obligations.NmiSequenceIgnoresMask := by
  unfold Obligations.NmiSequenceIgnoresMask
  refine ⟨fun s boundary request => ?_, fun s chosen => ?_⟩
  · obtain ⟨alone, res, rdy, notDue⟩ := boundary
    refine step_of_sequence (vector := nmiVector) (by decide) false alone (act_nmiSequence ?_)
    refine request.elim (fun ⟨pending, settled⟩ => ?_) id
    rw [chooseAct_running res notDue rdy, takesNmi_of_pending pending settled, if_pos rfl]
  · obtain ⟨res, rdy, taken⟩ := chooseAct_nmiSequence chosen
    exact ⟨pending_of_takesNmi taken, rdy, res⟩

/-! Returning from the handler (R213, R234, R236) -/

section

variable {s t : State}

/-- A pull of a location in RAM that an earlier step stored finds the byte stored. -/
theorem pulled_of_storesOnly {stored : List (Addr × Byte)} (h : StoresOnly s t stored)
    (same : t.platform = s.platform) (hr : t.replaced = []) (k : Slot) {n : Nat} {sp v : Byte}
    (hsp : t.sp + BitVec.ofNat 8 n = sp) (entry : (page1 sp, v) ∈ stored) (ram : s.kind (page1 sp) = .ram) :
    t.pulled k n = v := by
  rw [State.pulled_eq, hsp]
  exact memRead_of_storesOnly h same hr k entry ram

/-- RTI in a state that has a frame of `s` on top of its stack in RAM goes back to where `s` was. -/
theorem returnFromInterrupt_of_pushed {b : Bool} (hstack : StackRam 3 s)
    (pushed : StoresOnly s t
      [(page1 s.sp, hiByte s.pc), (page1 (s.sp - 1), loByte s.pc), (page1 (s.sp - 2), pByte s.p b)])
    (same : t.platform = s.platform) (hr : t.replaced = s.replaced) (hsp : t.sp = s.sp - 3) :
    returnFromInterrupt t = { t with p := s.p, pc := s.pc, sp := s.sp } := by
  obtain ⟨replaced, ram⟩ := hstack
  have pulled := pulled_of_storesOnly pushed same (hr.trans replaced)
  have flags : t.pulled .pull1 1 = pByte s.p b := pulled .pull1 (by bv_omega) (by simp) (ram 2 (by decide))
  have lo : t.pulled .pull2 2 = loByte s.pc := pulled .pull2 (by bv_omega) (by simp) (ram 1 (by decide))
  have hi : t.pulled .pull3 3 = hiByte s.pc :=
    pulled (sp := s.sp) .pull3 (by bv_omega) (by simp) (by simpa using ram 0 (by decide))
  have top : t.sp + 3 = s.sp := by rw [hsp, BitVec.sub_add_cancel]
  rw [returnFromInterrupt_eq, flags, lo, hi, top, joinBytes_hiByte_loByte, ← image_eq_pByte, flagsOf_image]

/-- Taking an interrupt, redirected or not and at whatever vector, leaves the frame and `S` three less, and changes no
other register but `P` and `PC`. -/
theorem interruptEntry_frame (vector : Addr) (b : Bool) (s : State) :
    StoresOnly s (interruptEntry vector b s)
        [(page1 s.sp, hiByte s.pc), (page1 (s.sp - 1), loByte s.pc), (page1 (s.sp - 2), pByte s.p b)] ∧
      (interruptEntry vector b s).sp = s.sp - 3 ∧ (interruptEntry vector b s).a = s.a ∧
      (interruptEntry vector b s).x = s.x ∧ (interruptEntry vector b s).y = s.y := by
  cases h : s.nmiRedirects vector
  · rw [interruptEntry_eq vector b s h]
    exact ⟨pushFrame_storesOnly s b, s.pushFrame_sp b, s.pushFrame_a b, s.pushFrame_x b, s.pushFrame_y b⟩
  · rw [interruptEntry_redirected vector b s h]
    exact ⟨pushFrame_storesOnly s b, s.pushFrame_sp b, s.pushFrame_a b, s.pushFrame_x b, s.pushFrame_y b⟩

end

/-- Settles O32: the entry leaves its frame on top of the stack (`interruptEntry_frame`), and RTI goes back by it
(`returnFromInterrupt_of_pushed`). -/
theorem interruptThenRtiResumes : Obligations.InterruptThenRtiResumes := by
  unfold Obligations.InterruptThenRtiResumes
  intro vector b s hstack
  obtain ⟨pushed, sp, a, x, y⟩ := interruptEntry_frame vector b s
  obtain ⟨-, -, -, -, -, platform, -, replaced⟩ := interruptEntry_samePins vector b s
  have resumes : exec .rti (interruptEntry vector b s) =
      done { interruptEntry vector b s with p := s.p, pc := s.pc, sp := s.sp } :=
    congrArg done (returnFromInterrupt_of_pushed hstack pushed platform replaced sp)
  exact ⟨_, resumes, rfl, rfl, rfl, a, x, y⟩

/-! The reset sequence (R221, R260) -/

section

variable {s t : State}

theorem act_reset (res : s.res = true) (due : s.resetDue = true) : act s = .next (resetSequence s) := by
  rw [act, chooseAct_reset res due]

theorem step_resetSequence (alone : Alone s) (res : s.res = true) (due : s.resetDue = true) :
    step s = .next (resetSequence s) := by
  have ⟨_, noEdge, noWrite⟩ := alone
  exact step_of_act alone (act_reset res due) noEdge noWrite

/-- What an act leaves is what the step leaves but for the edges and DMA writes inside. -/
theorem cpuStep_of_act (d : During) (dma : List DmaWrite) {after : State}
    (h : act (beginStep d dma s) = .next after) :
    cpuStep d dma s =
      .next (settle (actWritesV (beginStep d dma s)) (beginStep d dma s) (dmaAfterWrites dma after)) := by
  simp [cpuStep, h]

/-- Whatever falls inside the step of a reset sequence, the sequence has its effect, and an NMI edge moves the pin
only. -/
theorem cpuStep_resetSequence (d : During) (dma : List DmaWrite) (res : s.res = true) (due : s.resetDue = true) :
    ∃ t, cpuStep d dma s = .next t ∧ t.p.i = true ∧ t.nmiPending = false ∧ t.resetDue = false ∧
      (d.nmiFalls = true → hasNmi s.platform.dev = true → t.nmiLine = false) := by
  have begun : (beginStep d dma s).res = true ∧ (beginStep d dma s).resetDue = true ∧
      (beginStep d dma s).platform = s.platform ∧ (beginStep d dma s).during = d := by
    rw [beginStep_eq]
    exact ⟨res, due, rfl, rfl⟩
  obtain ⟨res', due', platform, during⟩ := begun
  refine ⟨_, cpuStep_of_act d dma (act_reset res' due'), ?_⟩
  rw [settle_i, settle_nmiPending, settle_resetDue, settle_nmiLine, nmiInside_reset _ _ (chooseAct_reset res' due'),
    dmaAfterWrites_eq]
  refine ⟨rfl, rfl, rfl, fun falls present => nmiInside_line _ _ ?_ (.inl ?_)⟩
  · exact (congrArg (fun p : Platform => hasNmi p.dev) platform).trans present
  · exact (congrArg During.nmiFalls during).trans falls

end

/-- Settles O34: the step is the reset sequence (`step_resetSequence`), and nothing inside it undoes what the second
clause states (`cpuStep_resetSequence`). -/
theorem resetSequenceLoadsVector : Obligations.ResetSequenceLoadsVector := by
  unfold Obligations.ResetSequenceLoadsVector
  refine ⟨fun s alone res due => ?_, fun s d dma res due => cpuStep_resetSequence d dma res due⟩
  have ⟨schedule, _, _⟩ := alone
  exact ⟨resetSequence s, step_resetSequence alone res due, rfl, rfl, rfl, rfl, rfl, rfl, rfl, res, rfl, rfl, rfl,
    schedule⟩

/-- Settles O60: the rise of RES makes a reset due, and the next step runs its sequence (`step_resetSequence`). -/
theorem runFromVectorAfterRes : Obligations.RunFromVectorAfterRes := by
  unfold Obligations.RunFromVectorAfterRes
  intro s low schedule noEdge noWrite
  have rises : step s = .next (setRes true { s with schedule := [] }) := by
    unfold step turn
    rw [schedule]
    rfl
  have due : (setRes true { s with schedule := [] }).resetDue = true := by simp [setRes, low]
  exact ⟨_, _, rises, step_resetSequence ⟨rfl, noEdge, noWrite⟩ rfl due, rfl, rfl, rfl, rfl⟩

/-! The SO pin (R227) -/

section

variable {s t : State}

/-- No act of the CPU moves the SO pin. -/
theorem act_soLine (h : act s = .next t) : t.soLine = s.soLine := by
  have kept {q u : State} (pins : SamePins q u) : u.soLine = q.soLine := by
    obtain ⟨-, -, -, so, -⟩ := pins
    exact so
  unfold act at h
  cases hc : chooseAct s <;> rw [hc] at h
  case idle | resetSequence => cases h; rfl
  case nmiSequence => cases h; exact kept (interruptEntry_samePins nmiVector false { s with nmiPending := false })
  case irqSequence => cases h; exact kept (interruptEntry_samePins irqVector false s)
  case instruction =>
    obtain ⟨i, u, -, he, rfl⟩ := instructionStep_next h
    exact kept (exec_keepsPins i s u he)

/-- An SO edge inside a step that does not write `V` sets it at the end. -/
theorem soInside_sets_v (before : State) (edge : before.during.soFalls = true) (present : hasSo s.platform.dev = true)
    (high : s.soLine = true) : (soInside false before s).p.v = true ∧ (soInside false before s).soLine = false := by
  simp [soInside, setSo, edge, present, high]

theorem settle_p (w : Bool) (before after : State) :
    (settle w before after).p = (soInside w before (nmiInside before after)).p := by
  unfold settle
  rw [resInside_eq]

theorem settle_soLine (w : Bool) (before after : State) :
    (settle w before after).soLine = (soInside w before (nmiInside before after)).soLine := by
  unfold settle
  rw [resInside_eq]

/-- With an SO edge inside it, a CPU step on a device with the pin high that does not write `V` leaves `V` set. -/
theorem cpuStep_so_edge (present : hasSo s.platform.dev = true) (high : s.soLine = true)
    (keepsV : actWritesV (beginStep ⟨false, true, false⟩ [] s) = false)
    (h : cpuStep ⟨false, true, false⟩ [] s = .next t) : t.p.v = true ∧ t.soLine = false := by
  obtain ⟨after, ha, rfl⟩ := cpuStep_next _ _ h
  have platform : after.platform = s.platform :=
    (act_sameLevels ha).platform.trans (beginStep_sameLevels _ _ s).platform
  have line : after.soLine = true := by
    rw [act_soLine ha, beginStep_eq]
    exact high
  rw [keepsV, dmaAfterWrites_nil, settle_p, settle_soLine, nmiInside_eq]
  exact soInside_sets_v _ (by rw [beginStep_eq]) (by rwa [platform]) line

end

/-- Settles O37: between steps the edge is `setSo`, and inside one it is applied at the end (`cpuStep_so_edge`). -/
theorem soEdgeSetsOverflow : Obligations.SoEdgeSetsOverflow := by
  unfold Obligations.SoEdgeSetsOverflow
  refine ⟨fun s => ?_, fun s t present high keepsV h => cpuStep_so_edge present high keepsV h⟩
  rw [envStep, setSo, Bool.not_false, Bool.and_true]

/-! The IRQ level (R223, R229) -/

/-- Settles O39: the level is a field that nothing latches (`takesIrq_of_high`), and no sequence moves it
(`interruptEntry_samePins`). -/
theorem irqLevelIsNotLatched : Obligations.IrqLevelIsNotLatched := by
  unfold Obligations.IrqLevelIsNotLatched
  intro s
  obtain ⟨irq, -⟩ := interruptEntry_samePins irqVector false s
  obtain ⟨nmi, -⟩ := interruptEntry_samePins nmiVector false { s with nmiPending := false }
  exact ⟨fun _ => rfl, takesIrq_of_high rfl, irq, nmi, rfl⟩

end Sys2Proof.Machine
end

section
/-! SUPPORT. RES falling inside a CPU step (70_reset_and_hazards.md R261): what an act of the CPU writes to memory does
not depend on the edges inside the step, so a step that RES cuts off mixes the memory before it with the memory the
whole step would have left. -/

namespace Sys2Proof.Machine

/-- The same state with other edges inside the CPU step in progress. -/
def State.withDuring (s : State) (d : During) : State := { s with during := d }

/-- Where both results are next states, those hold the same memory. -/
def SameMemory (r q : Result) : Prop := ∀ t u, r = .next t → q = .next u → u.mem = t.mem

section

variable {s t u : State}

/-! The updates that write memory -/

theorem State.withDuring_memWrite (s : State) (d : During) (a : Addr) (v : Byte) :
    (s.withDuring d).memWrite a v = (s.memWrite a v).withDuring d := by
  rw [memWrite_eq, memWrite_mem, memWrite_eq s, memWrite_mem s]
  rfl

theorem State.withDuring_memWrite_mem (s : State) (d : During) (a : Addr) (v : Byte) :
    ((s.withDuring d).memWrite a v).mem = (s.memWrite a v).mem := by
  rw [withDuring_memWrite]
  rfl

theorem State.withDuring_push8 (s : State) (d : During) (v : Byte) :
    (s.withDuring d).push8 v = (s.push8 v).withDuring d := by
  rw [push8, withDuring_memWrite]
  rfl

theorem State.withDuring_pushFrame (s : State) (d : During) (b : Bool) :
    (s.withDuring d).pushFrame b = (s.pushFrame b).withDuring d := by
  unfold pushFrame
  rw [withDuring_push8, withDuring_push8, withDuring_push8]
  rfl

/-- Redirected or not, taking an interrupt writes the frame and nothing else (60_exceptions.md R230, R239). -/
theorem interruptEntry_mem (vector : Addr) (b : Bool) (s : State) :
    (interruptEntry vector b s).mem = (s.pushFrame b).mem := by
  unfold interruptEntry
  dsimp only
  split <;> rfl

theorem interruptEntry_withDuring_mem (vector : Addr) (b : Bool) (s : State) (d : During) :
    (interruptEntry vector b (s.withDuring d)).mem = (interruptEntry vector b s).mem := by
  rw [interruptEntry_mem, interruptEntry_mem, State.withDuring_pushFrame]
  rfl

/-! The instructions -/

theorem next_sameMemory (h : u.mem = t.mem) : SameMemory (.next t) (.next u) := by
  rintro _ _ ⟨⟩ ⟨⟩
  exact h

theorem refused_sameMemory (r : Refusal) (q : Result) : SameMemory (.refused r) q := by
  intro t u ht
  cases ht

theorem store_sameMemory (n : Nat) (ea : Addr) (v : Byte) (s : State) (d : During) :
    SameMemory (store n ea v s) (store n ea v (s.withDuring d)) :=
  next_sameMemory (s.withDuring_memWrite_mem d ea v)

theorem shiftMem_sameMemory (n : Nat) (ea : Addr) (f : Byte → Byte × Bool) (s : State) (d : During) :
    SameMemory (shiftMem n ea f s) (shiftMem n ea f (s.withDuring d)) :=
  next_sameMemory (s.withDuring_memWrite_mem d ea (f (s.operand ea)).1)

theorem stepMem_sameMemory (n : Nat) (ea : Addr) (delta : Byte) (s : State) (d : During) :
    SameMemory (stepMem n ea delta s) (stepMem n ea delta (s.withDuring d)) :=
  next_sameMemory (s.withDuring_memWrite_mem d ea (s.operand ea + delta))

theorem push_sameMemory (v : Byte) (s : State) (d : During) :
    SameMemory (done ((s.push8 v).advance 1)) (done (((s.withDuring d).push8 v).advance 1)) :=
  next_sameMemory (s.withDuring_memWrite_mem d (stackAddr s.sp) v)

theorem execJsr_sameMemory (w : Addr) (s : State) (d : During) :
    SameMemory (execJsr w s) (execJsr w (s.withDuring d)) := by
  have sameTest : jsrOverwritesOperand (s.withDuring d) = jsrOverwritesOperand s := rfl
  unfold execJsr
  rw [sameTest]
  split
  · exact refused_sameMemory _ _
  · refine next_sameMemory ?_
    rw [State.withDuring_push8, State.withDuring_push8]
    rfl

/-- An instruction that does not write memory leaves it as it was, whatever falls inside the step. -/
theorem exec_sameMemory_of_not_writer {i : Instr} (keeps : writesMemory i.mnemonic i.mode = false) (s : State)
    (d : During) : SameMemory (exec i s) (exec i (s.withDuring d)) := by
  intro t u ht hu
  have notWriter : ¬ writesMemory i.mnemonic i.mode = true := by simp [keeps]
  calc u.mem = (s.withDuring d).mem := (exec_completes i _ u hu).mem.resolve_right notWriter
    _ = t.mem := ((exec_completes i s t ht).mem.resolve_right notWriter).symm

theorem exec_sameMemory (i : Instr) (s : State) (d : During) : SameMemory (exec i s) (exec i (s.withDuring d)) := by
  cases i with
  | staIndX | staZp | staAbs | staIndY | staZpX | staAbsY | staAbsX
  | stxZp | stxAbs | stxZpY | styZp | styAbs | styZpX => exact store_sameMemory _ _ _ s d
  | aslZp | aslAbs | aslZpX | aslAbsX | lsrZp | lsrAbs | lsrZpX | lsrAbsX
  | rolZp | rolAbs | rolZpX | rolAbsX | rorZp | rorAbs | rorZpX | rorAbsX => exact shiftMem_sameMemory _ _ _ s d
  | incZp | incAbs | incZpX | incAbsX | decZp | decAbs | decZpX | decAbsX => exact stepMem_sameMemory _ _ _ s d
  | pha | php => exact push_sameMemory _ s d
  | jsr w => exact execJsr_sameMemory w s d
  | brk => exact next_sameMemory (interruptEntry_withDuring_mem irqVector true (s.advance 2) d)
  | _ => exact exec_sameMemory_of_not_writer rfl s d

/-! An act of the CPU -/

theorem instructionStep_sameMemory (s : State) (d : During) :
    SameMemory (instructionStep s) (instructionStep (s.withDuring d)) := by
  intro t u ht hu
  obtain ⟨i, t', hi, ht', rfl⟩ := instructionStep_next ht
  obtain ⟨j, u', hj, hu', rfl⟩ := instructionStep_next hu
  have same : i = j := Except.ok.inj (hi.symm.trans hj)
  subst same
  exact exec_sameMemory i s d t' u' ht' hu'

/-- The IRQ sequence writes its frame whatever falls inside it. -/
theorem irqSequence_withDuring_mem (s : State) (d : During) :
    (irqSequence (s.withDuring d)).mem = (irqSequence s).mem := by
  unfold irqSequence
  exact interruptEntry_withDuring_mem irqVector false s d

/-- The NMI sequence writes its frame whatever falls inside it. -/
theorem nmiSequence_withDuring_mem (s : State) (d : During) :
    (nmiSequence (s.withDuring d)).mem = (nmiSequence s).mem := by
  have served : { s.withDuring d with nmiPending := false } = { s with nmiPending := false }.withDuring d := rfl
  unfold nmiSequence
  rw [served]
  exact interruptEntry_withDuring_mem nmiVector false { s with nmiPending := false } d

/-- The edges inside a step change neither the choice of the CPU nor what its act writes. -/
theorem act_sameMemory (s : State) (d : During) : SameMemory (act s) (act (s.withDuring d)) := by
  have chosen : chooseAct (s.withDuring d) = chooseAct s := rfl
  unfold act
  rw [chosen]
  cases chooseAct s with
  | idle | resetSequence => exact next_sameMemory rfl
  | nmiSequence => exact next_sameMemory (nmiSequence_withDuring_mem s d)
  | irqSequence => exact next_sameMemory (irqSequence_withDuring_mem s d)
  | instruction => exact instructionStep_sameMemory s d

/-! The end of the step -/

/-- Without DMA writes inside it, a step works in the state it starts from, with its edges noted. -/
theorem beginStep_no_dma (d : During) (s : State) : beginStep d [] s = { s with during := d, replaced := [] } := by
  unfold beginStep
  rw [dmaInOrder_nil]
  rfl

/-- Memory after a step: mixed where RES fell inside it, and as the step left it otherwise. -/
theorem settle_mem (w : Bool) (before after : State) :
    (settle w before after).mem =
      if before.during.resFalls then
        Memory.mix (fun l => Config.freeBit before.draws (.abandonedWrite l)) before.mem after.mem
      else after.mem := by
  unfold settle resInside setRes
  rw [soInside_eq, nmiInside_eq]
  split <;> rfl

theorem cpuStep_no_edge_mem (h : cpuStep ⟨false, false, false⟩ [] s = .next t) :
    ∃ after, act (beginStep ⟨false, false, false⟩ [] s) = .next after ∧ t.mem = after.mem := by
  obtain ⟨after, ha, rfl⟩ := cpuStep_next _ _ h
  refine ⟨after, ha, ?_⟩
  rw [settle_mem, beginStep_no_dma, dmaAfterWrites_nil]
  rfl

/-- A CPU step inside which RES falls leaves RES low and a mix of the memory before it and the memory of its act. -/
theorem cpuStep_res_falls (h : cpuStep ⟨false, false, true⟩ [] s = .next u) :
    ∃ after, act (beginStep ⟨false, false, true⟩ [] s) = .next after ∧ u.res = false ∧
      u.mem = Memory.mix (fun l => Config.freeBit s.draws (.abandonedWrite l)) s.mem after.mem := by
  obtain ⟨after, ha, rfl⟩ := cpuStep_next _ _ h
  refine ⟨after, ha, ?_⟩
  rw [settle_res, settle_mem, beginStep_no_dma, dmaAfterWrites_nil]
  exact ⟨rfl, rfl⟩

/-- RES falling inside a step cuts it off between the memory before it and the memory it would have left. -/
theorem cpuStep_res_falls_mem (whole : cpuStep ⟨false, false, false⟩ [] s = .next t)
    (cut : cpuStep ⟨false, false, true⟩ [] s = .next u) :
    u.mem = Memory.mix (fun l => Config.freeBit s.draws (.abandonedWrite l)) s.mem t.mem := by
  obtain ⟨after, ha, wholeMem⟩ := cpuStep_no_edge_mem whole
  obtain ⟨after', ha', -, cutMem⟩ := cpuStep_res_falls cut
  have edge : beginStep ⟨false, false, true⟩ [] s =
      (beginStep ⟨false, false, false⟩ [] s).withDuring ⟨false, false, true⟩ := by
    rw [beginStep_no_dma, beginStep_no_dma]
    rfl
  rw [edge] at ha'
  rw [cutMem, act_sameMemory _ _ after after' ha ha', wholeMem]

end

/-- Settles O58: the step that RES cuts off mixes the memory before it with the memory of the whole step
(`cpuStep_res_falls_mem`), location by location (`Memory.read_mix`). -/
theorem abandonedWritesAreOldOrNew : Obligations.AbandonedWritesAreOldOrNew := by
  unfold Obligations.AbandonedWritesAreOldOrNew
  intro s t u whole cut
  obtain ⟨-, -, low, -⟩ := cpuStep_res_falls cut
  refine ⟨low, fun a => ?_⟩
  obtain ⟨platform, -⟩ := cpuStep_levels _ _ whole
  obtain ⟨platform', -⟩ := cpuStep_levels _ _ cut
  have locT : t.loc a = s.loc a := State.loc_of_platform_eq platform a
  have locU : u.loc a = s.loc a := State.loc_of_platform_eq platform' a
  rw [State.byteAt, State.byteAt, State.byteAt, locT, locU, cpuStep_res_falls_mem whole cut]
  exact Memory.read_mix _ s.mem t.mem (s.loc a)

end Sys2Proof.Machine
end
